-- ==== Sys2Proof/Word.lean ====
section
/-! DEFINITION. The two word types of the machine (00_scope.md section 6; 10_state.md R10, R13). -/

namespace Sys2Proof

/-- A register value, a memory cell or a byte of an instruction: 8 bits (R4, R10). -/
abbrev Byte := BitVec 8

/-- `PC` and every effective address: 16 bits (R4, R13). -/
abbrev Addr := BitVec 16

end Sys2Proof
end

