-- ==== Sys2Proof/Config.lean ====
section
/-! DEFINITION. The parameters of the hardware (00_scope.md R4) and its one open value. The parameters of R4 that only
say "false" or "absent" (the indirect-JMP page-wrap bug, pops by a terminating RTS, interrupts) have no constant: the
meanings simply do not do these things. -/

namespace Sys2Proof

/-- Number of memory cells (R4, R40). -/
def Config.memorySize : Nat := 65536

/-- The content of a cell that nothing has written: reset and a load clear memory to 0x00 (R30, R290, R294; U14). -/
def Config.clearedByte : Byte := 0x00

/-- The page that holds the stack (R4, R12, R49). -/
def Config.stackPage : Byte := 0x01

/-- `S` after reset (R4, R30). -/
def Config.resetStackPointer : Byte := 0xFF

/-- A load succeeds exactly when `address + length` is at most this (R293; 90_conflicts.md C2). -/
def Config.loadLimit : Nat := 0xFFFF

/-- A dump is defined exactly when `address + length` is at most this (R306). -/
def Config.dumpLimit : Nat := 0x10000

/-- The instruction a decimal-mode result is asked for: the first argument of `BCD_INVALID` (R168). -/
inductive BcdOp where
  | adc
  | sbc
  deriving DecidableEq, Repr

/-- FREE VALUE. `BCD_INVALID(op, a, m, c)`: the result byte and the new Carry of a decimal-mode ADC or SBC when a nibble
of `a` or `m` exceeds 9 (R4, R168; D14, U4). The spec leaves it open, so it has no body: nothing is assumed of it but
that it is a function of these four arguments. Assumption log 1. -/
opaque Config.bcdInvalid : BcdOp → Byte → Byte → Bool → Byte × Bool

end Sys2Proof
end

