-- ==== Sys2Proof/Machine/State.lean ====
section
/-! DEFINITION. The state of the machine (10_state.md), the reasons a step can end without a next state, and the state
after reset (R30). -/

namespace Sys2Proof.Machine

/-- The memory `M` (R29, R40): the cells whose content is not `Config.clearedByte`, as (address, byte) pairs in rising
order of address. Every other cell of the 65536 reads as `Config.clearedByte`. The form is `Memory.wf` (Machine/Ops.lean). -/
abbrev Memory := List Host.Cell

/-- The two faults of the machine (R260). Both are fatal and delivered to the host, never to the program. -/
inductive Fault where
  /-- `EndOfDataFetch(addr)`: `FetchByte` was called with `PC = addr >= CODE_END` (R82, R261). Raised by `fetchByte`, so
  by the opcode fetch of any step and the fetch of any operand byte. Safe: the spec's own fault. -/
  | endOfDataFetch (addr : Addr)
  /-- `IllegalOpcode(opcode, addr)`: the opcode byte fetched at `addr` has no row in the opcode map (R67, R262). Raised
  by `fetchInstr` after the opcode fetch and before any operand fetch. Safe: the spec's own fault. -/
  | illegalOpcode (opcode : Byte) (addr : Addr)
  deriving DecidableEq, Repr

/-- What the model gives no result to. -/
inductive Refusal where
  /-- An instruction without a meaning, by the table's mnemonic. Raised by a refused arm of `exec`; no arm is one. Safe. -/
  | notModelled (mnemonic : String)
  /-- A step was asked for while `TERMINATED == 1`: no such step exists (R81; D12). Raised by `step`. Safe: the model
  stops where the spec has no step at all. Assumption log 2. -/
  | runEnded
  /-- `DumpMemory(address, length)` with `address + length > 0x10000` (R306; D29, U1). Raised by `dumpMemory`. Safe: the
  spec says a model refuses this call. -/
  | dumpOutOfRange (address : Addr) (length : Nat)
  deriving DecidableEq, Repr

/-- The whole state of the block (R10 to R30): "There is nothing else". -/
structure State where
  /-- `A`, the accumulator (R10). -/
  a : Byte
  /-- `X`, index register (R10). -/
  x : Byte
  /-- `Y`, index register (R10). -/
  y : Byte
  /-- `S`, the stack pointer: low byte of the next free cell of page 1 (R12). -/
  sp : Byte
  /-- `PC`: the address of the next byte to fetch (R13). -/
  pc : Addr
  /-- `P`, the status register; all eight bits are storage (R15). -/
  p : Byte
  /-- `M`, the memory (R29, R40). -/
  mem : Memory
  /-- `JSRCNT`, the pending-JSR counter, unbounded (R24; D10). -/
  jsrcnt : Nat
  /-- `TERMINATED`, the termination flag (R25). -/
  terminated : Bool
  /-- `CODE_START`, first address of the loaded-code window (R26). -/
  codeStart : Addr
  /-- `CODE_END`, the address just past the loaded-code window (R26). -/
  codeEnd : Addr
  deriving DecidableEq, Repr

/-- What a step or an instruction answers. -/
abbrev Result := Host.Outcome State Fault Refusal

/-- The state after `Reset` (R30, R290): every field has the value the spec states. There is no reset vector: `PC` is 0. -/
def State.reset : State where
  a := 0x00
  x := 0x00
  y := 0x00
  sp := Config.resetStackPointer
  pc := 0x0000
  p := 0x00
  mem := []
  jsrcnt := 0
  terminated := false
  codeStart := 0x0000
  codeEnd := 0x0000

end Sys2Proof.Machine
end

