-- ==== Sys2Proof/Machine/Ops.lean ====
section
/-! DEFINITION. The named operations over memory, registers, the stack and the instruction stream (10_state.md,
20_memory.md), and the raising of a fault (60_exceptions.md). -/

namespace Sys2Proof.Machine

/-! ### Memory (R40 to R48) -/

/-- The byte a memory holds at an address; what is not listed reads as `Config.clearedByte` (R30, R44). -/
def Memory.read : Memory → Nat → Byte
  | [], _ => Config.clearedByte
  | (b, v) :: rest, a => if b = a then v else Memory.read rest a

/-- `m` without its entry at `a`. -/
def Memory.erase : Memory → Nat → Memory
  | [], _ => []
  | (b, v) :: rest, a => if b = a then Memory.erase rest a else (b, v) :: Memory.erase rest a

/-- `m` with the entry `(a, v)` put before the first entry of a higher address. -/
def Memory.insert : Memory → Nat → Byte → Memory
  | [], a, v => [(a, v)]
  | (b, w) :: rest, a, v => if a < b then (a, v) :: (b, w) :: rest else (b, w) :: Memory.insert rest a v

/-- The memory with the cell at `a` holding `v` and every other cell as it was (R45), in canonical form. -/
def Memory.write (m : Memory) (a : Nat) (v : Byte) : Memory :=
  if v = Config.clearedByte then m.erase a else (m.erase a).insert a v

/-- The canonical form: addresses below 65536 (R40), strictly rising, and no entry that an unlisted address would read as. -/
def Memory.wf : Memory → Bool
  | [] => true
  | (a, v) :: rest => decide (a < Config.memorySize) && (v != Config.clearedByte) && rest.all (fun c => decide (a < c.1)) && Memory.wf rest

/-- `MemRead(addr, 1)` (R44): it cannot fail and changes no state (R46). -/
def State.read (s : State) (addr : Addr) : Byte := s.mem.read addr.toNat

/-- `MemWrite(addr, 1, v)` (R45): it cannot fail and changes nothing but the cell. -/
def State.write (s : State) (addr : Addr) (v : Byte) : State := { s with mem := s.mem.write addr.toNat v }

/-- The 16-bit value whose high byte is `hi` and low byte `lo`: `{hi, lo}` (00_scope.md section 6, R42). -/
def word (hi lo : Byte) : Addr := hi ++ lo

/-- The high byte of a 16-bit value. -/
def highByte (w : Addr) : Byte := w.extractLsb' 8 8

/-- The low byte of a 16-bit value. -/
def lowByte (w : Addr) : Byte := w.extractLsb' 0 8

/-- The address of cell `offset` of page `page`: `page*256 + offset` (R48). -/
def pageAddr (page offset : Byte) : Addr := word page offset

/-- `n` bytes of memory from `addr` up, wrapping at 0xFFFF (R40). -/
def State.bytesAt (s : State) (addr : Addr) : Nat → List Byte
  | 0 => []
  | n + 1 => s.read addr :: State.bytesAt s (addr + 1) n

/-- The bytes written one after the other from `addr` up. -/
def State.writeBytes (s : State) (addr : Addr) : List Byte → State
  | [] => s
  | b :: rest => State.writeBytes (s.write addr b) (addr + 1) rest

/-- Every cell set to 0x00 (R290, R292, R294). -/
def State.clearMemory (s : State) : State := { s with mem := [] }

/-! ### Registers (R10 to R14) -/

/-- The three general registers (R10). -/
inductive Reg where
  | a
  | x
  | y
  deriving DecidableEq, Repr

/-- A general register's value. -/
def State.reg (s : State) : Reg → Byte
  | .a => s.a
  | .x => s.x
  | .y => s.y

/-- A general register written; nothing else changes. -/
def State.setReg (s : State) (r : Reg) (v : Byte) : State :=
  match r with
  | .a => { s with a := v }
  | .x => { s with x := v }
  | .y => { s with y := v }

/-- `S <- v` (R12). -/
def State.setSp (s : State) (v : Byte) : State := { s with sp := v }

/-- `PC <- target` (R14, R200). -/
def State.setPc (s : State) (target : Addr) : State := { s with pc := target }

/-- `P <- v`: all eight bits (R15). -/
def State.setP (s : State) (v : Byte) : State := { s with p := v }

/-- `JSRCNT <- n` (R24). -/
def State.setJsrcnt (s : State) (n : Nat) : State := { s with jsrcnt := n }

/-- `TERMINATED <- b` (R25). -/
def State.setTerminated (s : State) (b : Bool) : State := { s with terminated := b }

/-! ### The stack (R52, R53) -/

/-- The stack cell a stack pointer names: `0x0100 + S` (R12, R52). -/
def stackAddr (sp : Byte) : Addr := pageAddr Config.stackPage sp

/-- `Push(v)`: write at `0x0100 + S`, then decrement `S` modulo 256 (R52). -/
def State.push (s : State) (v : Byte) : State := (s.write (stackAddr s.sp) v).setSp (s.sp - 1)

/-- `Pop()`: increment `S` modulo 256, then read at `0x0100 + S`; the cell is not cleared (R53). -/
def State.pop (s : State) : Byte × State :=
  let s' := s.setSp (s.sp + 1)
  (s'.read (stackAddr s'.sp), s')

/-! ### Faults and the fetch primitive (R82, R260 to R266) -/

/-- What a fetch answers: a value and the state after it, or a fault and the state at the `raise` (R263). -/
abbrev Fetched (α : Type) := Except (Fault × State) (α × State)

/-- `raise <Fault>`: the step ends with that fault and the state stays as it is (R260, R263). This is all there is to
taking an exception on this machine: nothing is saved, no mode changes, control goes nowhere (R265). There is no return
from one (R266). -/
def raise {α : Type} (f : Fault) (s : State) : Fetched α := .error (f, s)

/-- `FetchByte()` (R82): the byte at `PC`, and `PC` advanced by one; a fault when `PC >= CODE_END`, compared unsigned. Only
the end of the window is checked (D5). -/
def fetchByte (s : State) : Fetched Byte :=
  if s.codeEnd ≤ s.pc then raise (.endOfDataFetch s.pc) s
  else .ok (s.read s.pc, s.setPc (s.pc + 1))

end Sys2Proof.Machine
end

