-- ==== Sys2Proof/Machine/Flags.lean ====
section
/-! DEFINITION. The status register's bits and the flag updates (10_state.md R15 to R23, R27). -/

namespace Sys2Proof.Machine

/-- The eight bits of `P` (R15), the unnamed bit 5 among them (R27). -/
inductive Flag where
  | c
  | z
  | i
  | d
  | b
  | bit5
  | v
  | n
  deriving DecidableEq, Repr

/-- The mask of each bit (R15). -/
def Flag.mask : Flag → Byte
  | .n => 0x80
  | .v => 0x40
  | .bit5 => 0x20
  | .b => 0x10
  | .d => 0x08
  | .i => 0x04
  | .z => 0x02
  | .c => 0x01

/-- A bit test over the status byte: "each named accessor is a pure bit test/set over the same underlying byte" (R15). -/
def Flag.test (f : Flag) (p : Byte) : Bool := (p &&& f.mask) != 0

/-- A bit set or cleared in the status byte; no other bit changes (R15; 00_scope.md section 6). -/
def Flag.put (f : Flag) (b : Bool) (p : Byte) : Byte := if b then p ||| f.mask else p &&& ~~~f.mask

/-- The value of a flag. -/
def State.flag (s : State) (f : Flag) : Bool := f.test s.p

/-- `P.<f> <- b` and no other bit. -/
def State.setFlag (s : State) (f : Flag) (b : Bool) : State := s.setP (f.put b s.p)

/-- `SetZN(v)`: Z when `v` is 0, N its bit 7, the other six bits unchanged (R22). -/
def State.setZN (s : State) (v : Byte) : State := (s.setFlag .z (v == 0)).setFlag .n (v.getLsbD 7)

end Sys2Proof.Machine
end

