-- ==== Sys2Proof/Machine/Alu.lean ====
section
/-! DEFINITION. The arithmetic logic unit: the 8-bit operations as pure functions of their inputs (43_shift_rotate.md,
45_arithmetic.md, 46_compare_incdec.md). -/

namespace Sys2Proof.Machine

/-! ### Shifts (R140 to R144) -/

/-- The four shifts and rotates. -/
inductive ShiftOp where
  | asl
  | lsr
  | rol
  | ror
  deriving DecidableEq, Repr

/-- The result byte and the bit shifted out, from the operand and the old Carry (R141 to R144). -/
def shift (op : ShiftOp) (v : Byte) (carry : Bool) : Byte × Bool :=
  match op with
  | .asl => (v <<< 1, v.getLsbD 7)
  | .lsr => (v >>> 1, v.getLsbD 0)
  | .rol => ((v <<< 1) ||| (if carry then 0x01 else 0x00), v.getLsbD 7)
  | .ror => ((v >>> 1) ||| (if carry then 0x80 else 0x00), v.getLsbD 0)

/-! ### Binary addition (R161) -/

/-- What `AddBinary` computes: the result byte and the Carry and Overflow it writes. -/
structure AddResult where
  result : Byte
  carry : Bool
  overflow : Bool
  deriving DecidableEq, Repr

/-- `AddBinary(a, m, c)` (R161): the sum on unbounded integers, narrowed; Overflow by the sign-mismatch rule. -/
def addBinary (a m : Byte) (c : Bool) : AddResult :=
  let t := a.toNat + m.toNat + c.toNat
  let r : Byte := BitVec.ofNat 8 t
  { result := r, carry := decide (t > 0xFF), overflow := ((~~~(a ^^^ m)) &&& (a ^^^ r) &&& 0x80) != 0 }

/-! ### Decimal arithmetic (R165 to R168) -/

/-- A valid BCD byte: both nibbles 0 to 9 (00_scope.md section 7, R165). -/
def isBcd (b : Byte) : Bool := decide ((b.extractLsb' 4 4).toNat ≤ 9) && decide ((b.extractLsb' 0 4).toNat ≤ 9)

/-- `dec(b) = 10 * b[7:4] + b[3:0]` (R165). -/
def bcdToNat (b : Byte) : Nat := 10 * (b.extractLsb' 4 4).toNat + (b.extractLsb' 0 4).toNat

/-- `bcd(n) = ((n div 10) << 4) | (n mod 10)` for `n` from 0 to 99 (R165). -/
def natToBcd (n : Nat) : Byte := BitVec.ofNat 4 (n / 10) ++ BitVec.ofNat 4 (n % 10)

/-- `DecimalADC(a, m)` with Carry-in `c`: the result byte and the new Carry (R166); the open value when an operand is no
valid BCD byte (R168). -/
def decimalAdc (a m : Byte) (c : Bool) : Byte × Bool :=
  if isBcd a && isBcd m then
    let t := bcdToNat a + bcdToNat m + c.toNat
    (natToBcd (t % 100), decide (t > 99))
  else Config.bcdInvalid .adc a m c

/-- `DecimalSBC(a, m)` with Carry-in `c` (1 = no borrow): the result byte and the new Carry (R167); the open value when an
operand is no valid BCD byte (R168). -/
def decimalSbc (a m : Byte) (c : Bool) : Byte × Bool :=
  if isBcd a && isBcd m then
    let t : Int := (bcdToNat a : Int) - (bcdToNat m : Int) - (1 - (c.toNat : Int))
    (natToBcd (t % 100).toNat, decide (t ≥ 0))
  else Config.bcdInvalid .sbc a m c

end Sys2Proof.Machine
end

