-- ==== Sys2Proof/Syntax.lean ====
section
/-! DEFINITION. The instructions: one constructor for each of the 151 rows of spec/opcode_table.json (30_encoding.md R66), named
by the row's mnemonic and addressing mode. The argument is what the operand bytes say (R62): `d` for the one operand byte of a
two-byte instruction, `a16` for the 16-bit value of a three-byte one. Implied and relative rows, and JSR, have one mode each, so
their names need no mode. -/

namespace Sys2Proof

/-- An instruction of the machine (R66). -/
inductive Instr where
  | adcImm (d : Byte)
  | adcZp (d : Byte)
  | adcZpx (d : Byte)
  | adcAbs (a16 : Addr)
  | adcAbsx (a16 : Addr)
  | adcAbsy (a16 : Addr)
  | adcIndx (d : Byte)
  | adcIndy (d : Byte)
  | andImm (d : Byte)
  | andZp (d : Byte)
  | andZpx (d : Byte)
  | andAbs (a16 : Addr)
  | andAbsx (a16 : Addr)
  | andAbsy (a16 : Addr)
  | andIndx (d : Byte)
  | andIndy (d : Byte)
  | aslAcc
  | aslZp (d : Byte)
  | aslZpx (d : Byte)
  | aslAbs (a16 : Addr)
  | aslAbsx (a16 : Addr)
  | bcc (d : Byte)
  | bcs (d : Byte)
  | beq (d : Byte)
  | bitZp (d : Byte)
  | bitAbs (a16 : Addr)
  | bmi (d : Byte)
  | bne (d : Byte)
  | bpl (d : Byte)
  | brk
  | bvc (d : Byte)
  | bvs (d : Byte)
  | clc
  | cld
  | cli
  | clv
  | cmpImm (d : Byte)
  | cmpZp (d : Byte)
  | cmpZpx (d : Byte)
  | cmpAbs (a16 : Addr)
  | cmpAbsx (a16 : Addr)
  | cmpAbsy (a16 : Addr)
  | cmpIndx (d : Byte)
  | cmpIndy (d : Byte)
  | cpxImm (d : Byte)
  | cpxZp (d : Byte)
  | cpxAbs (a16 : Addr)
  | cpyImm (d : Byte)
  | cpyZp (d : Byte)
  | cpyAbs (a16 : Addr)
  | decZp (d : Byte)
  | decZpx (d : Byte)
  | decAbs (a16 : Addr)
  | decAbsx (a16 : Addr)
  | dex
  | dey
  | eorImm (d : Byte)
  | eorZp (d : Byte)
  | eorZpx (d : Byte)
  | eorAbs (a16 : Addr)
  | eorAbsx (a16 : Addr)
  | eorAbsy (a16 : Addr)
  | eorIndx (d : Byte)
  | eorIndy (d : Byte)
  | incZp (d : Byte)
  | incZpx (d : Byte)
  | incAbs (a16 : Addr)
  | incAbsx (a16 : Addr)
  | inx
  | iny
  | jmpAbs (a16 : Addr)
  | jmpInd (a16 : Addr)
  | jsr (a16 : Addr)
  | ldaImm (d : Byte)
  | ldaZp (d : Byte)
  | ldaZpx (d : Byte)
  | ldaAbs (a16 : Addr)
  | ldaAbsx (a16 : Addr)
  | ldaAbsy (a16 : Addr)
  | ldaIndx (d : Byte)
  | ldaIndy (d : Byte)
  | ldxImm (d : Byte)
  | ldxZp (d : Byte)
  | ldxZpy (d : Byte)
  | ldxAbs (a16 : Addr)
  | ldxAbsy (a16 : Addr)
  | ldyImm (d : Byte)
  | ldyZp (d : Byte)
  | ldyZpx (d : Byte)
  | ldyAbs (a16 : Addr)
  | ldyAbsx (a16 : Addr)
  | lsrAcc
  | lsrZp (d : Byte)
  | lsrZpx (d : Byte)
  | lsrAbs (a16 : Addr)
  | lsrAbsx (a16 : Addr)
  | nop
  | oraImm (d : Byte)
  | oraZp (d : Byte)
  | oraZpx (d : Byte)
  | oraAbs (a16 : Addr)
  | oraAbsx (a16 : Addr)
  | oraAbsy (a16 : Addr)
  | oraIndx (d : Byte)
  | oraIndy (d : Byte)
  | pha
  | php
  | pla
  | plp
  | rolAcc
  | rolZp (d : Byte)
  | rolZpx (d : Byte)
  | rolAbs (a16 : Addr)
  | rolAbsx (a16 : Addr)
  | rorAcc
  | rorZp (d : Byte)
  | rorZpx (d : Byte)
  | rorAbs (a16 : Addr)
  | rorAbsx (a16 : Addr)
  | rti
  | rts
  | sbcImm (d : Byte)
  | sbcZp (d : Byte)
  | sbcZpx (d : Byte)
  | sbcAbs (a16 : Addr)
  | sbcAbsx (a16 : Addr)
  | sbcAbsy (a16 : Addr)
  | sbcIndx (d : Byte)
  | sbcIndy (d : Byte)
  | sec
  | sed
  | sei
  | staZp (d : Byte)
  | staZpx (d : Byte)
  | staAbs (a16 : Addr)
  | staAbsx (a16 : Addr)
  | staAbsy (a16 : Addr)
  | staIndx (d : Byte)
  | staIndy (d : Byte)
  | stxZp (d : Byte)
  | stxZpy (d : Byte)
  | stxAbs (a16 : Addr)
  | styZp (d : Byte)
  | styZpx (d : Byte)
  | styAbs (a16 : Addr)
  | tax
  | tay
  | tsx
  | txa
  | txs
  | tya
  deriving DecidableEq, Repr

end Sys2Proof
end

