-- ==== Sys2Proof/WellFormed.lean ====
section
/-! DEFINITION. The instruction metadata (30_encoding.md R63, R66, R71): the mnemonic, addressing mode and operand of each
instruction, and which (mnemonic, mode) pairs are legal. Every `Instr` is well formed, because its constructors are exactly the
legal pairs and operand bytes are never illegal (R68); the pair check is what the external assembler asks (R71). -/

namespace Sys2Proof

/-- The 13 addressing modes (R63). -/
inductive Mode where
  | imp
  | acc
  | imm
  | zp
  | zpx
  | zpy
  | abs
  | absx
  | absy
  | ind
  | indx
  | indy
  | rel
  deriving DecidableEq, Repr

/-- The 56 mnemonics (R66). -/
inductive Mnemonic where
  | adc
  | and
  | asl
  | bcc
  | bcs
  | beq
  | bit
  | bmi
  | bne
  | bpl
  | brk
  | bvc
  | bvs
  | clc
  | cld
  | cli
  | clv
  | cmp
  | cpx
  | cpy
  | dec
  | dex
  | dey
  | eor
  | inc
  | inx
  | iny
  | jmp
  | jsr
  | lda
  | ldx
  | ldy
  | lsr
  | nop
  | ora
  | pha
  | php
  | pla
  | plp
  | rol
  | ror
  | rti
  | rts
  | sbc
  | sec
  | sed
  | sei
  | sta
  | stx
  | sty
  | tax
  | tay
  | tsx
  | txa
  | txs
  | tya
  deriving DecidableEq, Repr

/-- The operand of a mode that names one memory cell (R88 to R93, R95, R96), as its operand bytes give it (R62). -/
inductive MemForm where
  | zp (d : Byte)
  | zpx (d : Byte)
  | zpy (d : Byte)
  | abs (a16 : Addr)
  | absx (a16 : Addr)
  | absy (a16 : Addr)
  | indx (d : Byte)
  | indy (d : Byte)
  deriving DecidableEq, Repr

/-- The operand of an instruction (R62, R86 to R98). -/
inductive Operand where
  | imp
  | acc
  | imm (d : Byte)
  | mem (m : MemForm)
  | ind (a16 : Addr)
  | rel (d : Byte)
  deriving DecidableEq, Repr

/-- The addressing mode of a memory operand. -/
def MemForm.mode : MemForm → Mode
  | .zp _ => .zp
  | .zpx _ => .zpx
  | .zpy _ => .zpy
  | .abs _ => .abs
  | .absx _ => .absx
  | .absy _ => .absy
  | .indx _ => .indx
  | .indy _ => .indy

/-- The addressing mode of an operand. -/
def Operand.mode : Operand → Mode
  | .imp => .imp
  | .acc => .acc
  | .imm _ => .imm
  | .mem m => m.mode
  | .ind _ => .ind
  | .rel _ => .rel

/-- The mnemonic of an instruction (R66). -/
def Instr.mnemonic : Instr → Mnemonic
  | .adcImm _ => .adc
  | .adcZp _ => .adc
  | .adcZpx _ => .adc
  | .adcAbs _ => .adc
  | .adcAbsx _ => .adc
  | .adcAbsy _ => .adc
  | .adcIndx _ => .adc
  | .adcIndy _ => .adc
  | .andImm _ => .and
  | .andZp _ => .and
  | .andZpx _ => .and
  | .andAbs _ => .and
  | .andAbsx _ => .and
  | .andAbsy _ => .and
  | .andIndx _ => .and
  | .andIndy _ => .and
  | .aslAcc => .asl
  | .aslZp _ => .asl
  | .aslZpx _ => .asl
  | .aslAbs _ => .asl
  | .aslAbsx _ => .asl
  | .bcc _ => .bcc
  | .bcs _ => .bcs
  | .beq _ => .beq
  | .bitZp _ => .bit
  | .bitAbs _ => .bit
  | .bmi _ => .bmi
  | .bne _ => .bne
  | .bpl _ => .bpl
  | .brk => .brk
  | .bvc _ => .bvc
  | .bvs _ => .bvs
  | .clc => .clc
  | .cld => .cld
  | .cli => .cli
  | .clv => .clv
  | .cmpImm _ => .cmp
  | .cmpZp _ => .cmp
  | .cmpZpx _ => .cmp
  | .cmpAbs _ => .cmp
  | .cmpAbsx _ => .cmp
  | .cmpAbsy _ => .cmp
  | .cmpIndx _ => .cmp
  | .cmpIndy _ => .cmp
  | .cpxImm _ => .cpx
  | .cpxZp _ => .cpx
  | .cpxAbs _ => .cpx
  | .cpyImm _ => .cpy
  | .cpyZp _ => .cpy
  | .cpyAbs _ => .cpy
  | .decZp _ => .dec
  | .decZpx _ => .dec
  | .decAbs _ => .dec
  | .decAbsx _ => .dec
  | .dex => .dex
  | .dey => .dey
  | .eorImm _ => .eor
  | .eorZp _ => .eor
  | .eorZpx _ => .eor
  | .eorAbs _ => .eor
  | .eorAbsx _ => .eor
  | .eorAbsy _ => .eor
  | .eorIndx _ => .eor
  | .eorIndy _ => .eor
  | .incZp _ => .inc
  | .incZpx _ => .inc
  | .incAbs _ => .inc
  | .incAbsx _ => .inc
  | .inx => .inx
  | .iny => .iny
  | .jmpAbs _ => .jmp
  | .jmpInd _ => .jmp
  | .jsr _ => .jsr
  | .ldaImm _ => .lda
  | .ldaZp _ => .lda
  | .ldaZpx _ => .lda
  | .ldaAbs _ => .lda
  | .ldaAbsx _ => .lda
  | .ldaAbsy _ => .lda
  | .ldaIndx _ => .lda
  | .ldaIndy _ => .lda
  | .ldxImm _ => .ldx
  | .ldxZp _ => .ldx
  | .ldxZpy _ => .ldx
  | .ldxAbs _ => .ldx
  | .ldxAbsy _ => .ldx
  | .ldyImm _ => .ldy
  | .ldyZp _ => .ldy
  | .ldyZpx _ => .ldy
  | .ldyAbs _ => .ldy
  | .ldyAbsx _ => .ldy
  | .lsrAcc => .lsr
  | .lsrZp _ => .lsr
  | .lsrZpx _ => .lsr
  | .lsrAbs _ => .lsr
  | .lsrAbsx _ => .lsr
  | .nop => .nop
  | .oraImm _ => .ora
  | .oraZp _ => .ora
  | .oraZpx _ => .ora
  | .oraAbs _ => .ora
  | .oraAbsx _ => .ora
  | .oraAbsy _ => .ora
  | .oraIndx _ => .ora
  | .oraIndy _ => .ora
  | .pha => .pha
  | .php => .php
  | .pla => .pla
  | .plp => .plp
  | .rolAcc => .rol
  | .rolZp _ => .rol
  | .rolZpx _ => .rol
  | .rolAbs _ => .rol
  | .rolAbsx _ => .rol
  | .rorAcc => .ror
  | .rorZp _ => .ror
  | .rorZpx _ => .ror
  | .rorAbs _ => .ror
  | .rorAbsx _ => .ror
  | .rti => .rti
  | .rts => .rts
  | .sbcImm _ => .sbc
  | .sbcZp _ => .sbc
  | .sbcZpx _ => .sbc
  | .sbcAbs _ => .sbc
  | .sbcAbsx _ => .sbc
  | .sbcAbsy _ => .sbc
  | .sbcIndx _ => .sbc
  | .sbcIndy _ => .sbc
  | .sec => .sec
  | .sed => .sed
  | .sei => .sei
  | .staZp _ => .sta
  | .staZpx _ => .sta
  | .staAbs _ => .sta
  | .staAbsx _ => .sta
  | .staAbsy _ => .sta
  | .staIndx _ => .sta
  | .staIndy _ => .sta
  | .stxZp _ => .stx
  | .stxZpy _ => .stx
  | .stxAbs _ => .stx
  | .styZp _ => .sty
  | .styZpx _ => .sty
  | .styAbs _ => .sty
  | .tax => .tax
  | .tay => .tay
  | .tsx => .tsx
  | .txa => .txa
  | .txs => .txs
  | .tya => .tya

/-- The operand of an instruction (R66 for its mode, R62 for its value). -/
def Instr.operand : Instr → Operand
  | .adcImm d => .imm d
  | .adcZp d => .mem (.zp d)
  | .adcZpx d => .mem (.zpx d)
  | .adcAbs a16 => .mem (.abs a16)
  | .adcAbsx a16 => .mem (.absx a16)
  | .adcAbsy a16 => .mem (.absy a16)
  | .adcIndx d => .mem (.indx d)
  | .adcIndy d => .mem (.indy d)
  | .andImm d => .imm d
  | .andZp d => .mem (.zp d)
  | .andZpx d => .mem (.zpx d)
  | .andAbs a16 => .mem (.abs a16)
  | .andAbsx a16 => .mem (.absx a16)
  | .andAbsy a16 => .mem (.absy a16)
  | .andIndx d => .mem (.indx d)
  | .andIndy d => .mem (.indy d)
  | .aslAcc => .acc
  | .aslZp d => .mem (.zp d)
  | .aslZpx d => .mem (.zpx d)
  | .aslAbs a16 => .mem (.abs a16)
  | .aslAbsx a16 => .mem (.absx a16)
  | .bcc d => .rel d
  | .bcs d => .rel d
  | .beq d => .rel d
  | .bitZp d => .mem (.zp d)
  | .bitAbs a16 => .mem (.abs a16)
  | .bmi d => .rel d
  | .bne d => .rel d
  | .bpl d => .rel d
  | .brk => .imp
  | .bvc d => .rel d
  | .bvs d => .rel d
  | .clc => .imp
  | .cld => .imp
  | .cli => .imp
  | .clv => .imp
  | .cmpImm d => .imm d
  | .cmpZp d => .mem (.zp d)
  | .cmpZpx d => .mem (.zpx d)
  | .cmpAbs a16 => .mem (.abs a16)
  | .cmpAbsx a16 => .mem (.absx a16)
  | .cmpAbsy a16 => .mem (.absy a16)
  | .cmpIndx d => .mem (.indx d)
  | .cmpIndy d => .mem (.indy d)
  | .cpxImm d => .imm d
  | .cpxZp d => .mem (.zp d)
  | .cpxAbs a16 => .mem (.abs a16)
  | .cpyImm d => .imm d
  | .cpyZp d => .mem (.zp d)
  | .cpyAbs a16 => .mem (.abs a16)
  | .decZp d => .mem (.zp d)
  | .decZpx d => .mem (.zpx d)
  | .decAbs a16 => .mem (.abs a16)
  | .decAbsx a16 => .mem (.absx a16)
  | .dex => .imp
  | .dey => .imp
  | .eorImm d => .imm d
  | .eorZp d => .mem (.zp d)
  | .eorZpx d => .mem (.zpx d)
  | .eorAbs a16 => .mem (.abs a16)
  | .eorAbsx a16 => .mem (.absx a16)
  | .eorAbsy a16 => .mem (.absy a16)
  | .eorIndx d => .mem (.indx d)
  | .eorIndy d => .mem (.indy d)
  | .incZp d => .mem (.zp d)
  | .incZpx d => .mem (.zpx d)
  | .incAbs a16 => .mem (.abs a16)
  | .incAbsx a16 => .mem (.absx a16)
  | .inx => .imp
  | .iny => .imp
  | .jmpAbs a16 => .mem (.abs a16)
  | .jmpInd a16 => .ind a16
  | .jsr a16 => .mem (.abs a16)
  | .ldaImm d => .imm d
  | .ldaZp d => .mem (.zp d)
  | .ldaZpx d => .mem (.zpx d)
  | .ldaAbs a16 => .mem (.abs a16)
  | .ldaAbsx a16 => .mem (.absx a16)
  | .ldaAbsy a16 => .mem (.absy a16)
  | .ldaIndx d => .mem (.indx d)
  | .ldaIndy d => .mem (.indy d)
  | .ldxImm d => .imm d
  | .ldxZp d => .mem (.zp d)
  | .ldxZpy d => .mem (.zpy d)
  | .ldxAbs a16 => .mem (.abs a16)
  | .ldxAbsy a16 => .mem (.absy a16)
  | .ldyImm d => .imm d
  | .ldyZp d => .mem (.zp d)
  | .ldyZpx d => .mem (.zpx d)
  | .ldyAbs a16 => .mem (.abs a16)
  | .ldyAbsx a16 => .mem (.absx a16)
  | .lsrAcc => .acc
  | .lsrZp d => .mem (.zp d)
  | .lsrZpx d => .mem (.zpx d)
  | .lsrAbs a16 => .mem (.abs a16)
  | .lsrAbsx a16 => .mem (.absx a16)
  | .nop => .imp
  | .oraImm d => .imm d
  | .oraZp d => .mem (.zp d)
  | .oraZpx d => .mem (.zpx d)
  | .oraAbs a16 => .mem (.abs a16)
  | .oraAbsx a16 => .mem (.absx a16)
  | .oraAbsy a16 => .mem (.absy a16)
  | .oraIndx d => .mem (.indx d)
  | .oraIndy d => .mem (.indy d)
  | .pha => .imp
  | .php => .imp
  | .pla => .imp
  | .plp => .imp
  | .rolAcc => .acc
  | .rolZp d => .mem (.zp d)
  | .rolZpx d => .mem (.zpx d)
  | .rolAbs a16 => .mem (.abs a16)
  | .rolAbsx a16 => .mem (.absx a16)
  | .rorAcc => .acc
  | .rorZp d => .mem (.zp d)
  | .rorZpx d => .mem (.zpx d)
  | .rorAbs a16 => .mem (.abs a16)
  | .rorAbsx a16 => .mem (.absx a16)
  | .rti => .imp
  | .rts => .imp
  | .sbcImm d => .imm d
  | .sbcZp d => .mem (.zp d)
  | .sbcZpx d => .mem (.zpx d)
  | .sbcAbs a16 => .mem (.abs a16)
  | .sbcAbsx a16 => .mem (.absx a16)
  | .sbcAbsy a16 => .mem (.absy a16)
  | .sbcIndx d => .mem (.indx d)
  | .sbcIndy d => .mem (.indy d)
  | .sec => .imp
  | .sed => .imp
  | .sei => .imp
  | .staZp d => .mem (.zp d)
  | .staZpx d => .mem (.zpx d)
  | .staAbs a16 => .mem (.abs a16)
  | .staAbsx a16 => .mem (.absx a16)
  | .staAbsy a16 => .mem (.absy a16)
  | .staIndx d => .mem (.indx d)
  | .staIndy d => .mem (.indy d)
  | .stxZp d => .mem (.zp d)
  | .stxZpy d => .mem (.zpy d)
  | .stxAbs a16 => .mem (.abs a16)
  | .styZp d => .mem (.zp d)
  | .styZpx d => .mem (.zpx d)
  | .styAbs a16 => .mem (.abs a16)
  | .tax => .imp
  | .tay => .imp
  | .tsx => .imp
  | .txa => .imp
  | .txs => .imp
  | .tya => .imp

/-- The addressing mode of an instruction. -/
def Instr.mode (i : Instr) : Mode := i.operand.mode

/-- The modes each mnemonic has: the filled columns of its row in the table of R66. -/
def Mnemonic.modes : Mnemonic → List Mode
  | .adc => [.imm, .zp, .zpx, .abs, .absx, .absy, .indx, .indy]
  | .and => [.imm, .zp, .zpx, .abs, .absx, .absy, .indx, .indy]
  | .asl => [.acc, .zp, .zpx, .abs, .absx]
  | .bcc => [.rel]
  | .bcs => [.rel]
  | .beq => [.rel]
  | .bit => [.zp, .abs]
  | .bmi => [.rel]
  | .bne => [.rel]
  | .bpl => [.rel]
  | .brk => [.imp]
  | .bvc => [.rel]
  | .bvs => [.rel]
  | .clc => [.imp]
  | .cld => [.imp]
  | .cli => [.imp]
  | .clv => [.imp]
  | .cmp => [.imm, .zp, .zpx, .abs, .absx, .absy, .indx, .indy]
  | .cpx => [.imm, .zp, .abs]
  | .cpy => [.imm, .zp, .abs]
  | .dec => [.zp, .zpx, .abs, .absx]
  | .dex => [.imp]
  | .dey => [.imp]
  | .eor => [.imm, .zp, .zpx, .abs, .absx, .absy, .indx, .indy]
  | .inc => [.zp, .zpx, .abs, .absx]
  | .inx => [.imp]
  | .iny => [.imp]
  | .jmp => [.abs, .ind]
  | .jsr => [.abs]
  | .lda => [.imm, .zp, .zpx, .abs, .absx, .absy, .indx, .indy]
  | .ldx => [.imm, .zp, .zpy, .abs, .absy]
  | .ldy => [.imm, .zp, .zpx, .abs, .absx]
  | .lsr => [.acc, .zp, .zpx, .abs, .absx]
  | .nop => [.imp]
  | .ora => [.imm, .zp, .zpx, .abs, .absx, .absy, .indx, .indy]
  | .pha => [.imp]
  | .php => [.imp]
  | .pla => [.imp]
  | .plp => [.imp]
  | .rol => [.acc, .zp, .zpx, .abs, .absx]
  | .ror => [.acc, .zp, .zpx, .abs, .absx]
  | .rti => [.imp]
  | .rts => [.imp]
  | .sbc => [.imm, .zp, .zpx, .abs, .absx, .absy, .indx, .indy]
  | .sec => [.imp]
  | .sed => [.imp]
  | .sei => [.imp]
  | .sta => [.zp, .zpx, .abs, .absx, .absy, .indx, .indy]
  | .stx => [.zp, .zpy, .abs]
  | .sty => [.zp, .zpx, .abs]
  | .tax => [.imp]
  | .tay => [.imp]
  | .tsx => [.imp]
  | .txa => [.imp]
  | .txs => [.imp]
  | .tya => [.imp]

/-- "a (mnemonic, mode) pair is legal exactly when rule R66 has a byte for it" (R71). -/
def legalPair (m : Mnemonic) (k : Mode) : Bool := m.modes.contains k

/-- An instruction is well formed when its (mnemonic, mode) pair is legal. -/
def Instr.wellFormed (i : Instr) : Bool := legalPair i.mnemonic i.mode

end Sys2Proof
end

