-- ==== Sys2Proof/Machine/Operands.lean ====
section
/-! DEFINITION. The addressing-mode resolver: effective addresses, source operands and control-transfer targets
(40_dispatch_and_addressing.md R86 to R102). The operand bytes have already been fetched (R101), so `PC` is the address of
the next instruction. -/

namespace Sys2Proof.Machine

/-- A zero-page address held in 16 bits (R62). -/
def zeroPage (zp : Byte) : Addr := zp.setWidth 16

/-- A 16-bit little-endian pointer in zero page, its high byte's address wrapping within the page (R95, R96). -/
def zeroPagePointer (s : State) (zp : Byte) : Addr := word (s.read (zeroPage (zp + 1))) (s.read (zeroPage zp))

/-- `Address(mode)` of the eight modes that name a memory cell (R88 to R93, R95, R96). -/
def effectiveAddress (s : State) : MemForm → Addr
  | .zp d => zeroPage d
  | .zpx d => zeroPage (d + s.x)
  | .zpy d => zeroPage (d + s.y)
  | .abs a16 => a16
  | .absx a16 => a16 + s.x.setWidth 16
  | .absy a16 => a16 + s.y.setWidth 16
  | .indx d => zeroPagePointer s (d + s.x)
  | .indy d => zeroPagePointer s d + s.y.setWidth 16

/-- `Operand(mode)` of a memory mode: one read at the effective address (R100). The immediate operand is the byte itself (R98). -/
def memOperand (s : State) (m : MemForm) : Byte := s.read (effectiveAddress s m)

/-- `Address(IND)`: the little-endian target stored at the pointer; the high byte from `pointer + 1` modulo 65536, with no
page-wrap bug (R94; 90_conflicts.md C4). -/
def indirectTarget (s : State) (ptr : Addr) : Addr := word (s.read (ptr + 1)) (s.read ptr)

/-- `Address(REL)`: `PC` after the fetch plus the sign-extended displacement, modulo 65536 (R97). -/
def branchTarget (s : State) (d : Byte) : Addr := s.pc + d.signExtend 16

end Sys2Proof.Machine
end

