-- ==== Sys2Proof/Machine/Arithmetic.lean ====
section
/-! DEFINITION. The meanings of the add and subtract with carry, binary and decimal (45_arithmetic.md). Each is the pseudocode of its
rule with all operand bytes already fetched (R85, R101), so `PC` is the address of the next instruction. -/

namespace Sys2Proof.Machine

/-- The writes of `AddBinary(A, m, P.C)` and `A <- result` (R161): C, V, Z, N and `A`. -/
def addBinaryToA (m : Byte) (s : State) : State :=
  let out := addBinary s.a m (s.flag .c)
  (((s.setReg .a out.result).setFlag .c out.carry).setFlag .v out.overflow).setZN out.result

/-- The writes of a decimal-mode ADC or SBC: `A` and C, nothing else (R164). -/
def decimalToA (out : Byte × Bool) (s : State) : State := (s.setReg .a out.1).setFlag .c out.2

/-- ADC with operand `m` (R160, R162). -/
def addWithCarry (m : Byte) (s : State) : Result :=
  if s.flag .d then .next (decimalToA (decimalAdc s.a m (s.flag .c)) s)
  else .next (addBinaryToA m s)

/-- SBC with operand `m` (R160, R163): in binary mode ADC of the complemented operand. -/
def subtractWithBorrow (m : Byte) (s : State) : Result :=
  if s.flag .d then .next (decimalToA (decimalSbc s.a m (s.flag .c)) s)
  else .next (addBinaryToA (m ^^^ 0xFF) s)

/-- ADC immediate (R162, mode R98). -/
def execAdcImm (d : Byte) (s : State) : Result := addWithCarry d s

/-- ADC zero page (R162, mode R88). -/
def execAdcZp (d : Byte) (s : State) : Result := addWithCarry (memOperand s (.zp d)) s

/-- ADC zero page,X (R162, mode R89). -/
def execAdcZpx (d : Byte) (s : State) : Result := addWithCarry (memOperand s (.zpx d)) s

/-- ADC absolute (R162, mode R91). -/
def execAdcAbs (a16 : Addr) (s : State) : Result := addWithCarry (memOperand s (.abs a16)) s

/-- ADC absolute,X (R162, mode R92). -/
def execAdcAbsx (a16 : Addr) (s : State) : Result := addWithCarry (memOperand s (.absx a16)) s

/-- ADC absolute,Y (R162, mode R93). -/
def execAdcAbsy (a16 : Addr) (s : State) : Result := addWithCarry (memOperand s (.absy a16)) s

/-- ADC (indirect,X) (R162, mode R95). -/
def execAdcIndx (d : Byte) (s : State) : Result := addWithCarry (memOperand s (.indx d)) s

/-- ADC (indirect),Y (R162, mode R96). -/
def execAdcIndy (d : Byte) (s : State) : Result := addWithCarry (memOperand s (.indy d)) s

/-- SBC immediate (R163, mode R98). -/
def execSbcImm (d : Byte) (s : State) : Result := subtractWithBorrow d s

/-- SBC zero page (R163, mode R88). -/
def execSbcZp (d : Byte) (s : State) : Result := subtractWithBorrow (memOperand s (.zp d)) s

/-- SBC zero page,X (R163, mode R89). -/
def execSbcZpx (d : Byte) (s : State) : Result := subtractWithBorrow (memOperand s (.zpx d)) s

/-- SBC absolute (R163, mode R91). -/
def execSbcAbs (a16 : Addr) (s : State) : Result := subtractWithBorrow (memOperand s (.abs a16)) s

/-- SBC absolute,X (R163, mode R92). -/
def execSbcAbsx (a16 : Addr) (s : State) : Result := subtractWithBorrow (memOperand s (.absx a16)) s

/-- SBC absolute,Y (R163, mode R93). -/
def execSbcAbsy (a16 : Addr) (s : State) : Result := subtractWithBorrow (memOperand s (.absy a16)) s

/-- SBC (indirect,X) (R163, mode R95). -/
def execSbcIndx (d : Byte) (s : State) : Result := subtractWithBorrow (memOperand s (.indx d)) s

/-- SBC (indirect),Y (R163, mode R96). -/
def execSbcIndy (d : Byte) (s : State) : Result := subtractWithBorrow (memOperand s (.indy d)) s

end Sys2Proof.Machine
end

