-- ==== Sys2Proof/Machine/Branch.lean ====
section
/-! DEFINITION. The meanings of the conditional branches (48_branches.md). Each is the pseudocode of its
rule with all operand bytes already fetched (R85, R101), so `PC` is the address of the next instruction. -/

namespace Sys2Proof.Machine

/-- The shape of every branch (R220): when the condition holds, `PC` becomes the relative target. The displacement byte has been
fetched in both cases. -/
def branchIf (cond : Bool) (d : Byte) (s : State) : Result := .next (if cond then s.setPc (branchTarget s d) else s)

/-- BCC relative (R221, mode R97). -/
def execBcc (d : Byte) (s : State) : Result := branchIf (!s.flag .c) d s

/-- BCS relative (R222, mode R97). -/
def execBcs (d : Byte) (s : State) : Result := branchIf (s.flag .c) d s

/-- BEQ relative (R223, mode R97). -/
def execBeq (d : Byte) (s : State) : Result := branchIf (s.flag .z) d s

/-- BMI relative (R224, mode R97). -/
def execBmi (d : Byte) (s : State) : Result := branchIf (s.flag .n) d s

/-- BNE relative (R225, mode R97). -/
def execBne (d : Byte) (s : State) : Result := branchIf (!s.flag .z) d s

/-- BPL relative (R226, mode R97). -/
def execBpl (d : Byte) (s : State) : Result := branchIf (!s.flag .n) d s

/-- BVC relative (R227, mode R97). -/
def execBvc (d : Byte) (s : State) : Result := branchIf (!s.flag .v) d s

/-- BVS relative (R228, mode R97). -/
def execBvs (d : Byte) (s : State) : Result := branchIf (s.flag .v) d s

end Sys2Proof.Machine
end

