-- ==== Sys2Proof/Machine/CompareIncDec.lean ====
section
/-! DEFINITION. The meanings of the compare, increment and decrement instructions (46_compare_incdec.md). Each is the pseudocode of its
rule with all operand bytes already fetched (R85, R101), so `PC` is the address of the next instruction. -/

namespace Sys2Proof.Machine

/-- `Compare(r, m)` (R180): Z, C and N from the register and the operand; the register keeps its value. -/
def compareReg (r m : Byte) (s : State) : Result :=
  .next (((s.setFlag .z (r == m)).setFlag .c (decide (m ≤ r))).setFlag .n ((r - m).getLsbD 7))

/-- The read-modify-write of INC and DEC (R184): `delta` added to one cell modulo 256, Z and N from the result. -/
def addToCell (delta : Byte) (m : MemForm) (s : State) : Result :=
  let addr := effectiveAddress s m
  let r := s.read addr + delta
  .next ((s.write addr r).setZN r)

/-- The register increments and decrements (R184): `delta` added modulo 256, Z and N from the result. -/
def addToReg (delta : Byte) (q : Reg) (s : State) : Result :=
  let r := s.reg q + delta
  .next ((s.setReg q r).setZN r)

/-- CMP immediate (R181, mode R98). -/
def execCmpImm (d : Byte) (s : State) : Result := compareReg s.a d s

/-- CMP zero page (R181, mode R88). -/
def execCmpZp (d : Byte) (s : State) : Result := compareReg s.a (memOperand s (.zp d)) s

/-- CMP zero page,X (R181, mode R89). -/
def execCmpZpx (d : Byte) (s : State) : Result := compareReg s.a (memOperand s (.zpx d)) s

/-- CMP absolute (R181, mode R91). -/
def execCmpAbs (a16 : Addr) (s : State) : Result := compareReg s.a (memOperand s (.abs a16)) s

/-- CMP absolute,X (R181, mode R92). -/
def execCmpAbsx (a16 : Addr) (s : State) : Result := compareReg s.a (memOperand s (.absx a16)) s

/-- CMP absolute,Y (R181, mode R93). -/
def execCmpAbsy (a16 : Addr) (s : State) : Result := compareReg s.a (memOperand s (.absy a16)) s

/-- CMP (indirect,X) (R181, mode R95). -/
def execCmpIndx (d : Byte) (s : State) : Result := compareReg s.a (memOperand s (.indx d)) s

/-- CMP (indirect),Y (R181, mode R96). -/
def execCmpIndy (d : Byte) (s : State) : Result := compareReg s.a (memOperand s (.indy d)) s

/-- CPX immediate (R182, mode R98). -/
def execCpxImm (d : Byte) (s : State) : Result := compareReg s.x d s

/-- CPX zero page (R182, mode R88). -/
def execCpxZp (d : Byte) (s : State) : Result := compareReg s.x (memOperand s (.zp d)) s

/-- CPX absolute (R182, mode R91). -/
def execCpxAbs (a16 : Addr) (s : State) : Result := compareReg s.x (memOperand s (.abs a16)) s

/-- CPY immediate (R183, mode R98). -/
def execCpyImm (d : Byte) (s : State) : Result := compareReg s.y d s

/-- CPY zero page (R183, mode R88). -/
def execCpyZp (d : Byte) (s : State) : Result := compareReg s.y (memOperand s (.zp d)) s

/-- CPY absolute (R183, mode R91). -/
def execCpyAbs (a16 : Addr) (s : State) : Result := compareReg s.y (memOperand s (.abs a16)) s

/-- INC zero page (R185, mode R88). -/
def execIncZp (d : Byte) (s : State) : Result := addToCell 1 (.zp d) s

/-- INC zero page,X (R185, mode R89). -/
def execIncZpx (d : Byte) (s : State) : Result := addToCell 1 (.zpx d) s

/-- INC absolute (R185, mode R91). -/
def execIncAbs (a16 : Addr) (s : State) : Result := addToCell 1 (.abs a16) s

/-- INC absolute,X (R185, mode R92). -/
def execIncAbsx (a16 : Addr) (s : State) : Result := addToCell 1 (.absx a16) s

/-- DEC zero page (R186, mode R88). -/
def execDecZp (d : Byte) (s : State) : Result := addToCell (-1) (.zp d) s

/-- DEC zero page,X (R186, mode R89). -/
def execDecZpx (d : Byte) (s : State) : Result := addToCell (-1) (.zpx d) s

/-- DEC absolute (R186, mode R91). -/
def execDecAbs (a16 : Addr) (s : State) : Result := addToCell (-1) (.abs a16) s

/-- DEC absolute,X (R186, mode R92). -/
def execDecAbsx (a16 : Addr) (s : State) : Result := addToCell (-1) (.absx a16) s

/-- INX (R187, mode R86). -/
def execInx (s : State) : Result := addToReg 1 .x s

/-- INY (R188, mode R86). -/
def execIny (s : State) : Result := addToReg 1 .y s

/-- DEX (R189, mode R86). -/
def execDex (s : State) : Result := addToReg (-1) .x s

/-- DEY (R190, mode R86). -/
def execDey (s : State) : Result := addToReg (-1) .y s

end Sys2Proof.Machine
end

