-- ==== Sys2Proof/Machine/Control.lean ====
section
/-! DEFINITION. The meanings of the jumps, subroutine call and return, and the BRK and RTI stubs (47_control_flow.md). Each is the pseudocode of its
rule with all operand bytes already fetched (R85, R101), so `PC` is the address of the next instruction. -/

namespace Sys2Proof.Machine

/-- JMP absolute (R201, mode R91). -/
def execJmpAbs (a16 : Addr) (s : State) : Result := .next (s.setPc a16)

/-- JMP indirect (R201, mode R94). -/
def execJmpInd (a16 : Addr) (s : State) : Result := .next (s.setPc (indirectTarget s a16))

/-- JSR absolute (R202, mode R91). `PC` is the address of the next instruction, and that is what is pushed, high byte first (90_conflicts.md C1). -/
def execJsr (a16 : Addr) (s : State) : Result :=
  let s1 := s.push (highByte s.pc)
  let s2 := s1.push (lowByte s.pc)
  .next ((s2.setPc a16).setJsrcnt (s.jsrcnt + 1))

/-- RTS (R204, mode R86). With a JSR pending it returns to the popped value itself; with none it ends the run, popping nothing (D9, D11). -/
def execRts (s : State) : Result :=
  if 0 < s.jsrcnt then
    let lo := s.pop
    let hi := lo.2.pop
    .next ((hi.2.setPc (word hi.1 lo.1)).setJsrcnt (s.jsrcnt - 1))
  else .next (s.setTerminated true)

/-- BRK (R208, mode R86). A stub: nothing but the opcode fetch happens (D15). -/
def execBrk (s : State) : Result := .next s

/-- RTI (R209, mode R86). A stub: nothing but the opcode fetch happens (D15). -/
def execRti (s : State) : Result := .next s

end Sys2Proof.Machine
end

