-- ==== Sys2Proof/Machine/FlagInstr.lean ====
section
/-! DEFINITION. The meanings of the flag instructions and NOP (49_flags_nop.md). Each is the pseudocode of its
rule with all operand bytes already fetched (R85, R101), so `PC` is the address of the next instruction. -/

namespace Sys2Proof.Machine

/-- A flag instruction (R240): one bit of `P` written with a constant, nothing else. -/
def flagInstr (f : Flag) (b : Bool) (s : State) : Result := .next (s.setFlag f b)

/-- CLC (R241, mode R86). -/
def execClc (s : State) : Result := flagInstr .c false s

/-- CLD (R242, mode R86). -/
def execCld (s : State) : Result := flagInstr .d false s

/-- CLI (R243, mode R86). -/
def execCli (s : State) : Result := flagInstr .i false s

/-- CLV (R244, mode R86). -/
def execClv (s : State) : Result := flagInstr .v false s

/-- SEC (R245, mode R86). -/
def execSec (s : State) : Result := flagInstr .c true s

/-- SED (R246, mode R86). -/
def execSed (s : State) : Result := flagInstr .d true s

/-- SEI (R247, mode R86). -/
def execSei (s : State) : Result := flagInstr .i true s

/-- NOP (R248, mode R86). Nothing but the opcode fetch happens. -/
def execNop (s : State) : Result := .next s

end Sys2Proof.Machine
end

