-- ==== Sys2Proof/Machine/LoadStore.lean ====
section
/-! DEFINITION. The meanings of the load, store and register-transfer instructions (41_load_store_transfer.md). Each is the pseudocode of its
rule with all operand bytes already fetched (R85, R101), so `PC` is the address of the next instruction. -/

namespace Sys2Proof.Machine

/-- A load (R110): the operand into its register, Z and N from it. -/
def loadReg (r : Reg) (v : Byte) (s : State) : Result := .next ((s.setReg r v).setZN v)

/-- A store (R114): one `MemWrite` at the effective address; no register and no flag changes. -/
def storeByte (m : MemForm) (v : Byte) (s : State) : Result := .next (s.write (effectiveAddress s m) v)

/-- A transfer that sets Z and N on its destination (R118). -/
def transfer (r : Reg) (v : Byte) (s : State) : Result := .next ((s.setReg r v).setZN v)

/-- LDA immediate (R111, mode R98). -/
def execLdaImm (d : Byte) (s : State) : Result := loadReg .a d s

/-- LDA zero page (R111, mode R88). -/
def execLdaZp (d : Byte) (s : State) : Result := loadReg .a (memOperand s (.zp d)) s

/-- LDA zero page,X (R111, mode R89). -/
def execLdaZpx (d : Byte) (s : State) : Result := loadReg .a (memOperand s (.zpx d)) s

/-- LDA absolute (R111, mode R91). -/
def execLdaAbs (a16 : Addr) (s : State) : Result := loadReg .a (memOperand s (.abs a16)) s

/-- LDA absolute,X (R111, mode R92). -/
def execLdaAbsx (a16 : Addr) (s : State) : Result := loadReg .a (memOperand s (.absx a16)) s

/-- LDA absolute,Y (R111, mode R93). -/
def execLdaAbsy (a16 : Addr) (s : State) : Result := loadReg .a (memOperand s (.absy a16)) s

/-- LDA (indirect,X) (R111, mode R95). -/
def execLdaIndx (d : Byte) (s : State) : Result := loadReg .a (memOperand s (.indx d)) s

/-- LDA (indirect),Y (R111, mode R96). -/
def execLdaIndy (d : Byte) (s : State) : Result := loadReg .a (memOperand s (.indy d)) s

/-- LDX immediate (R112, mode R98). -/
def execLdxImm (d : Byte) (s : State) : Result := loadReg .x d s

/-- LDX zero page (R112, mode R88). -/
def execLdxZp (d : Byte) (s : State) : Result := loadReg .x (memOperand s (.zp d)) s

/-- LDX zero page,Y (R112, mode R90). -/
def execLdxZpy (d : Byte) (s : State) : Result := loadReg .x (memOperand s (.zpy d)) s

/-- LDX absolute (R112, mode R91). -/
def execLdxAbs (a16 : Addr) (s : State) : Result := loadReg .x (memOperand s (.abs a16)) s

/-- LDX absolute,Y (R112, mode R93). -/
def execLdxAbsy (a16 : Addr) (s : State) : Result := loadReg .x (memOperand s (.absy a16)) s

/-- LDY immediate (R113, mode R98). -/
def execLdyImm (d : Byte) (s : State) : Result := loadReg .y d s

/-- LDY zero page (R113, mode R88). -/
def execLdyZp (d : Byte) (s : State) : Result := loadReg .y (memOperand s (.zp d)) s

/-- LDY zero page,X (R113, mode R89). -/
def execLdyZpx (d : Byte) (s : State) : Result := loadReg .y (memOperand s (.zpx d)) s

/-- LDY absolute (R113, mode R91). -/
def execLdyAbs (a16 : Addr) (s : State) : Result := loadReg .y (memOperand s (.abs a16)) s

/-- LDY absolute,X (R113, mode R92). -/
def execLdyAbsx (a16 : Addr) (s : State) : Result := loadReg .y (memOperand s (.absx a16)) s

/-- STA zero page (R115, mode R88). -/
def execStaZp (d : Byte) (s : State) : Result := storeByte (.zp d) s.a s

/-- STA zero page,X (R115, mode R89). -/
def execStaZpx (d : Byte) (s : State) : Result := storeByte (.zpx d) s.a s

/-- STA absolute (R115, mode R91). -/
def execStaAbs (a16 : Addr) (s : State) : Result := storeByte (.abs a16) s.a s

/-- STA absolute,X (R115, mode R92). -/
def execStaAbsx (a16 : Addr) (s : State) : Result := storeByte (.absx a16) s.a s

/-- STA absolute,Y (R115, mode R93). -/
def execStaAbsy (a16 : Addr) (s : State) : Result := storeByte (.absy a16) s.a s

/-- STA (indirect,X) (R115, mode R95). -/
def execStaIndx (d : Byte) (s : State) : Result := storeByte (.indx d) s.a s

/-- STA (indirect),Y (R115, mode R96). -/
def execStaIndy (d : Byte) (s : State) : Result := storeByte (.indy d) s.a s

/-- STX zero page (R116, mode R88). -/
def execStxZp (d : Byte) (s : State) : Result := storeByte (.zp d) s.x s

/-- STX zero page,Y (R116, mode R90). -/
def execStxZpy (d : Byte) (s : State) : Result := storeByte (.zpy d) s.x s

/-- STX absolute (R116, mode R91). -/
def execStxAbs (a16 : Addr) (s : State) : Result := storeByte (.abs a16) s.x s

/-- STY zero page (R117, mode R88). -/
def execStyZp (d : Byte) (s : State) : Result := storeByte (.zp d) s.y s

/-- STY zero page,X (R117, mode R89). -/
def execStyZpx (d : Byte) (s : State) : Result := storeByte (.zpx d) s.y s

/-- STY absolute (R117, mode R91). -/
def execStyAbs (a16 : Addr) (s : State) : Result := storeByte (.abs a16) s.y s

/-- TAX (R119, mode R86). -/
def execTax (s : State) : Result := transfer .x s.a s

/-- TAY (R120, mode R86). -/
def execTay (s : State) : Result := transfer .y s.a s

/-- TSX (R121, mode R86). -/
def execTsx (s : State) : Result := transfer .x s.sp s

/-- TXA (R122, mode R86). -/
def execTxa (s : State) : Result := transfer .a s.x s

/-- TXS (R123, mode R86). No flag changes. -/
def execTxs (s : State) : Result := .next (s.setSp s.x)

/-- TYA (R124, mode R86). -/
def execTya (s : State) : Result := transfer .a s.y s

end Sys2Proof.Machine
end

