-- ==== Sys2Proof/Machine/Logic.lean ====
section
/-! DEFINITION. The meanings of the logic instructions and BIT (44_logic_bit.md). Each is the pseudocode of its
rule with all operand bytes already fetched (R85, R101), so `PC` is the address of the next instruction. -/

namespace Sys2Proof.Machine

/-- The result of a logic instruction (R150): into `A`, Z and N from it. -/
def logicResult (r : Byte) (s : State) : Result := .next ((s.setReg .a r).setZN r)

/-- BIT with operand `m` (R154): N and V from the operand, Z from `A & m`. -/
def bitTest (m : Byte) (s : State) : Result :=
  .next (((s.setFlag .n (m.getLsbD 7)).setFlag .v (m.getLsbD 6)).setFlag .z ((s.a &&& m) == 0))

/-- AND immediate (R151, mode R98). -/
def execAndImm (d : Byte) (s : State) : Result := logicResult (s.a &&& d) s

/-- AND zero page (R151, mode R88). -/
def execAndZp (d : Byte) (s : State) : Result := logicResult (s.a &&& (memOperand s (.zp d))) s

/-- AND zero page,X (R151, mode R89). -/
def execAndZpx (d : Byte) (s : State) : Result := logicResult (s.a &&& (memOperand s (.zpx d))) s

/-- AND absolute (R151, mode R91). -/
def execAndAbs (a16 : Addr) (s : State) : Result := logicResult (s.a &&& (memOperand s (.abs a16))) s

/-- AND absolute,X (R151, mode R92). -/
def execAndAbsx (a16 : Addr) (s : State) : Result := logicResult (s.a &&& (memOperand s (.absx a16))) s

/-- AND absolute,Y (R151, mode R93). -/
def execAndAbsy (a16 : Addr) (s : State) : Result := logicResult (s.a &&& (memOperand s (.absy a16))) s

/-- AND (indirect,X) (R151, mode R95). -/
def execAndIndx (d : Byte) (s : State) : Result := logicResult (s.a &&& (memOperand s (.indx d))) s

/-- AND (indirect),Y (R151, mode R96). -/
def execAndIndy (d : Byte) (s : State) : Result := logicResult (s.a &&& (memOperand s (.indy d))) s

/-- EOR immediate (R152, mode R98). -/
def execEorImm (d : Byte) (s : State) : Result := logicResult (s.a ^^^ d) s

/-- EOR zero page (R152, mode R88). -/
def execEorZp (d : Byte) (s : State) : Result := logicResult (s.a ^^^ (memOperand s (.zp d))) s

/-- EOR zero page,X (R152, mode R89). -/
def execEorZpx (d : Byte) (s : State) : Result := logicResult (s.a ^^^ (memOperand s (.zpx d))) s

/-- EOR absolute (R152, mode R91). -/
def execEorAbs (a16 : Addr) (s : State) : Result := logicResult (s.a ^^^ (memOperand s (.abs a16))) s

/-- EOR absolute,X (R152, mode R92). -/
def execEorAbsx (a16 : Addr) (s : State) : Result := logicResult (s.a ^^^ (memOperand s (.absx a16))) s

/-- EOR absolute,Y (R152, mode R93). -/
def execEorAbsy (a16 : Addr) (s : State) : Result := logicResult (s.a ^^^ (memOperand s (.absy a16))) s

/-- EOR (indirect,X) (R152, mode R95). -/
def execEorIndx (d : Byte) (s : State) : Result := logicResult (s.a ^^^ (memOperand s (.indx d))) s

/-- EOR (indirect),Y (R152, mode R96). -/
def execEorIndy (d : Byte) (s : State) : Result := logicResult (s.a ^^^ (memOperand s (.indy d))) s

/-- ORA immediate (R153, mode R98). -/
def execOraImm (d : Byte) (s : State) : Result := logicResult (s.a ||| d) s

/-- ORA zero page (R153, mode R88). -/
def execOraZp (d : Byte) (s : State) : Result := logicResult (s.a ||| (memOperand s (.zp d))) s

/-- ORA zero page,X (R153, mode R89). -/
def execOraZpx (d : Byte) (s : State) : Result := logicResult (s.a ||| (memOperand s (.zpx d))) s

/-- ORA absolute (R153, mode R91). -/
def execOraAbs (a16 : Addr) (s : State) : Result := logicResult (s.a ||| (memOperand s (.abs a16))) s

/-- ORA absolute,X (R153, mode R92). -/
def execOraAbsx (a16 : Addr) (s : State) : Result := logicResult (s.a ||| (memOperand s (.absx a16))) s

/-- ORA absolute,Y (R153, mode R93). -/
def execOraAbsy (a16 : Addr) (s : State) : Result := logicResult (s.a ||| (memOperand s (.absy a16))) s

/-- ORA (indirect,X) (R153, mode R95). -/
def execOraIndx (d : Byte) (s : State) : Result := logicResult (s.a ||| (memOperand s (.indx d))) s

/-- ORA (indirect),Y (R153, mode R96). -/
def execOraIndy (d : Byte) (s : State) : Result := logicResult (s.a ||| (memOperand s (.indy d))) s

/-- BIT zero page (R154, mode R88). -/
def execBitZp (d : Byte) (s : State) : Result := bitTest (memOperand s (.zp d)) s

/-- BIT absolute (R154, mode R91). -/
def execBitAbs (a16 : Addr) (s : State) : Result := bitTest (memOperand s (.abs a16)) s

end Sys2Proof.Machine
end

