-- ==== Sys2Proof/Machine/Shift.lean ====
section
/-! DEFINITION. The meanings of the shift and rotate instructions (43_shift_rotate.md). Each is the pseudocode of its
rule with all operand bytes already fetched (R85, R101), so `PC` is the address of the next instruction. -/

namespace Sys2Proof.Machine

/-- The frame of R140 in Accumulator mode. -/
def shiftAcc (op : ShiftOp) (s : State) : Result :=
  let out := shift op s.a (s.flag .c)
  .next (((s.setReg .a out.1).setFlag .c out.2).setZN out.1)

/-- The frame of R140 in a memory mode: one read and one write of the same cell. -/
def shiftMem (op : ShiftOp) (m : MemForm) (s : State) : Result :=
  let addr := effectiveAddress s m
  let out := shift op (s.read addr) (s.flag .c)
  .next (((s.write addr out.1).setFlag .c out.2).setZN out.1)

/-- ASL accumulator (R141, mode R87). -/
def execAslAcc (s : State) : Result := shiftAcc .asl s

/-- ASL zero page (R141, mode R88). -/
def execAslZp (d : Byte) (s : State) : Result := shiftMem .asl (.zp d) s

/-- ASL zero page,X (R141, mode R89). -/
def execAslZpx (d : Byte) (s : State) : Result := shiftMem .asl (.zpx d) s

/-- ASL absolute (R141, mode R91). -/
def execAslAbs (a16 : Addr) (s : State) : Result := shiftMem .asl (.abs a16) s

/-- ASL absolute,X (R141, mode R92). -/
def execAslAbsx (a16 : Addr) (s : State) : Result := shiftMem .asl (.absx a16) s

/-- LSR accumulator (R142, mode R87). -/
def execLsrAcc (s : State) : Result := shiftAcc .lsr s

/-- LSR zero page (R142, mode R88). -/
def execLsrZp (d : Byte) (s : State) : Result := shiftMem .lsr (.zp d) s

/-- LSR zero page,X (R142, mode R89). -/
def execLsrZpx (d : Byte) (s : State) : Result := shiftMem .lsr (.zpx d) s

/-- LSR absolute (R142, mode R91). -/
def execLsrAbs (a16 : Addr) (s : State) : Result := shiftMem .lsr (.abs a16) s

/-- LSR absolute,X (R142, mode R92). -/
def execLsrAbsx (a16 : Addr) (s : State) : Result := shiftMem .lsr (.absx a16) s

/-- ROL accumulator (R143, mode R87). -/
def execRolAcc (s : State) : Result := shiftAcc .rol s

/-- ROL zero page (R143, mode R88). -/
def execRolZp (d : Byte) (s : State) : Result := shiftMem .rol (.zp d) s

/-- ROL zero page,X (R143, mode R89). -/
def execRolZpx (d : Byte) (s : State) : Result := shiftMem .rol (.zpx d) s

/-- ROL absolute (R143, mode R91). -/
def execRolAbs (a16 : Addr) (s : State) : Result := shiftMem .rol (.abs a16) s

/-- ROL absolute,X (R143, mode R92). -/
def execRolAbsx (a16 : Addr) (s : State) : Result := shiftMem .rol (.absx a16) s

/-- ROR accumulator (R144, mode R87). -/
def execRorAcc (s : State) : Result := shiftAcc .ror s

/-- ROR zero page (R144, mode R88). -/
def execRorZp (d : Byte) (s : State) : Result := shiftMem .ror (.zp d) s

/-- ROR zero page,X (R144, mode R89). -/
def execRorZpx (d : Byte) (s : State) : Result := shiftMem .ror (.zpx d) s

/-- ROR absolute (R144, mode R91). -/
def execRorAbs (a16 : Addr) (s : State) : Result := shiftMem .ror (.abs a16) s

/-- ROR absolute,X (R144, mode R92). -/
def execRorAbsx (a16 : Addr) (s : State) : Result := shiftMem .ror (.absx a16) s

end Sys2Proof.Machine
end

