-- ==== Sys2Proof/Machine/Stack.lean ====
section
/-! DEFINITION. The meanings of the stack instructions (42_stack_ops.md). Each is the pseudocode of its
rule with all operand bytes already fetched (R85, R101), so `PC` is the address of the next instruction. -/

namespace Sys2Proof.Machine

/-- PHA (R131, mode R86). -/
def execPha (s : State) : Result := .next (s.push s.a)

/-- PHP (R132, mode R86). The raw flags byte, nothing forced to 1. -/
def execPhp (s : State) : Result := .next (s.push s.p)

/-- PLA (R133, mode R86). -/
def execPla (s : State) : Result :=
  let popped := s.pop
  .next ((popped.2.setReg .a popped.1).setZN popped.1)

/-- PLP (R134, mode R86). All eight bits, nothing masked. -/
def execPlp (s : State) : Result :=
  let popped := s.pop
  .next (popped.2.setP popped.1)

end Sys2Proof.Machine
end

