-- ==== Sys2Proof/Machine/Dispatch.lean ====
section
/-! DEFINITION. The dispatch (40_dispatch_and_addressing.md R80, R85): one arm for each instruction, each a direct call of its
meaning. -/

namespace Sys2Proof.Machine

def exec (i : Instr) (s : State) : Host.Outcome State Fault Refusal :=
  match i with
  | .adcImm d => Sys2Proof.Machine.execAdcImm d s
  | .adcZp d => Sys2Proof.Machine.execAdcZp d s
  | .adcZpx d => Sys2Proof.Machine.execAdcZpx d s
  | .adcAbs a16 => Sys2Proof.Machine.execAdcAbs a16 s
  | .adcAbsx a16 => Sys2Proof.Machine.execAdcAbsx a16 s
  | .adcAbsy a16 => Sys2Proof.Machine.execAdcAbsy a16 s
  | .adcIndx d => Sys2Proof.Machine.execAdcIndx d s
  | .adcIndy d => Sys2Proof.Machine.execAdcIndy d s
  | .andImm d => Sys2Proof.Machine.execAndImm d s
  | .andZp d => Sys2Proof.Machine.execAndZp d s
  | .andZpx d => Sys2Proof.Machine.execAndZpx d s
  | .andAbs a16 => Sys2Proof.Machine.execAndAbs a16 s
  | .andAbsx a16 => Sys2Proof.Machine.execAndAbsx a16 s
  | .andAbsy a16 => Sys2Proof.Machine.execAndAbsy a16 s
  | .andIndx d => Sys2Proof.Machine.execAndIndx d s
  | .andIndy d => Sys2Proof.Machine.execAndIndy d s
  | .aslAcc => Sys2Proof.Machine.execAslAcc s
  | .aslZp d => Sys2Proof.Machine.execAslZp d s
  | .aslZpx d => Sys2Proof.Machine.execAslZpx d s
  | .aslAbs a16 => Sys2Proof.Machine.execAslAbs a16 s
  | .aslAbsx a16 => Sys2Proof.Machine.execAslAbsx a16 s
  | .bcc d => Sys2Proof.Machine.execBcc d s
  | .bcs d => Sys2Proof.Machine.execBcs d s
  | .beq d => Sys2Proof.Machine.execBeq d s
  | .bitZp d => Sys2Proof.Machine.execBitZp d s
  | .bitAbs a16 => Sys2Proof.Machine.execBitAbs a16 s
  | .bmi d => Sys2Proof.Machine.execBmi d s
  | .bne d => Sys2Proof.Machine.execBne d s
  | .bpl d => Sys2Proof.Machine.execBpl d s
  | .brk => Sys2Proof.Machine.execBrk s
  | .bvc d => Sys2Proof.Machine.execBvc d s
  | .bvs d => Sys2Proof.Machine.execBvs d s
  | .clc => Sys2Proof.Machine.execClc s
  | .cld => Sys2Proof.Machine.execCld s
  | .cli => Sys2Proof.Machine.execCli s
  | .clv => Sys2Proof.Machine.execClv s
  | .cmpImm d => Sys2Proof.Machine.execCmpImm d s
  | .cmpZp d => Sys2Proof.Machine.execCmpZp d s
  | .cmpZpx d => Sys2Proof.Machine.execCmpZpx d s
  | .cmpAbs a16 => Sys2Proof.Machine.execCmpAbs a16 s
  | .cmpAbsx a16 => Sys2Proof.Machine.execCmpAbsx a16 s
  | .cmpAbsy a16 => Sys2Proof.Machine.execCmpAbsy a16 s
  | .cmpIndx d => Sys2Proof.Machine.execCmpIndx d s
  | .cmpIndy d => Sys2Proof.Machine.execCmpIndy d s
  | .cpxImm d => Sys2Proof.Machine.execCpxImm d s
  | .cpxZp d => Sys2Proof.Machine.execCpxZp d s
  | .cpxAbs a16 => Sys2Proof.Machine.execCpxAbs a16 s
  | .cpyImm d => Sys2Proof.Machine.execCpyImm d s
  | .cpyZp d => Sys2Proof.Machine.execCpyZp d s
  | .cpyAbs a16 => Sys2Proof.Machine.execCpyAbs a16 s
  | .decZp d => Sys2Proof.Machine.execDecZp d s
  | .decZpx d => Sys2Proof.Machine.execDecZpx d s
  | .decAbs a16 => Sys2Proof.Machine.execDecAbs a16 s
  | .decAbsx a16 => Sys2Proof.Machine.execDecAbsx a16 s
  | .dex => Sys2Proof.Machine.execDex s
  | .dey => Sys2Proof.Machine.execDey s
  | .eorImm d => Sys2Proof.Machine.execEorImm d s
  | .eorZp d => Sys2Proof.Machine.execEorZp d s
  | .eorZpx d => Sys2Proof.Machine.execEorZpx d s
  | .eorAbs a16 => Sys2Proof.Machine.execEorAbs a16 s
  | .eorAbsx a16 => Sys2Proof.Machine.execEorAbsx a16 s
  | .eorAbsy a16 => Sys2Proof.Machine.execEorAbsy a16 s
  | .eorIndx d => Sys2Proof.Machine.execEorIndx d s
  | .eorIndy d => Sys2Proof.Machine.execEorIndy d s
  | .incZp d => Sys2Proof.Machine.execIncZp d s
  | .incZpx d => Sys2Proof.Machine.execIncZpx d s
  | .incAbs a16 => Sys2Proof.Machine.execIncAbs a16 s
  | .incAbsx a16 => Sys2Proof.Machine.execIncAbsx a16 s
  | .inx => Sys2Proof.Machine.execInx s
  | .iny => Sys2Proof.Machine.execIny s
  | .jmpAbs a16 => Sys2Proof.Machine.execJmpAbs a16 s
  | .jmpInd a16 => Sys2Proof.Machine.execJmpInd a16 s
  | .jsr a16 => Sys2Proof.Machine.execJsr a16 s
  | .ldaImm d => Sys2Proof.Machine.execLdaImm d s
  | .ldaZp d => Sys2Proof.Machine.execLdaZp d s
  | .ldaZpx d => Sys2Proof.Machine.execLdaZpx d s
  | .ldaAbs a16 => Sys2Proof.Machine.execLdaAbs a16 s
  | .ldaAbsx a16 => Sys2Proof.Machine.execLdaAbsx a16 s
  | .ldaAbsy a16 => Sys2Proof.Machine.execLdaAbsy a16 s
  | .ldaIndx d => Sys2Proof.Machine.execLdaIndx d s
  | .ldaIndy d => Sys2Proof.Machine.execLdaIndy d s
  | .ldxImm d => Sys2Proof.Machine.execLdxImm d s
  | .ldxZp d => Sys2Proof.Machine.execLdxZp d s
  | .ldxZpy d => Sys2Proof.Machine.execLdxZpy d s
  | .ldxAbs a16 => Sys2Proof.Machine.execLdxAbs a16 s
  | .ldxAbsy a16 => Sys2Proof.Machine.execLdxAbsy a16 s
  | .ldyImm d => Sys2Proof.Machine.execLdyImm d s
  | .ldyZp d => Sys2Proof.Machine.execLdyZp d s
  | .ldyZpx d => Sys2Proof.Machine.execLdyZpx d s
  | .ldyAbs a16 => Sys2Proof.Machine.execLdyAbs a16 s
  | .ldyAbsx a16 => Sys2Proof.Machine.execLdyAbsx a16 s
  | .lsrAcc => Sys2Proof.Machine.execLsrAcc s
  | .lsrZp d => Sys2Proof.Machine.execLsrZp d s
  | .lsrZpx d => Sys2Proof.Machine.execLsrZpx d s
  | .lsrAbs a16 => Sys2Proof.Machine.execLsrAbs a16 s
  | .lsrAbsx a16 => Sys2Proof.Machine.execLsrAbsx a16 s
  | .nop => Sys2Proof.Machine.execNop s
  | .oraImm d => Sys2Proof.Machine.execOraImm d s
  | .oraZp d => Sys2Proof.Machine.execOraZp d s
  | .oraZpx d => Sys2Proof.Machine.execOraZpx d s
  | .oraAbs a16 => Sys2Proof.Machine.execOraAbs a16 s
  | .oraAbsx a16 => Sys2Proof.Machine.execOraAbsx a16 s
  | .oraAbsy a16 => Sys2Proof.Machine.execOraAbsy a16 s
  | .oraIndx d => Sys2Proof.Machine.execOraIndx d s
  | .oraIndy d => Sys2Proof.Machine.execOraIndy d s
  | .pha => Sys2Proof.Machine.execPha s
  | .php => Sys2Proof.Machine.execPhp s
  | .pla => Sys2Proof.Machine.execPla s
  | .plp => Sys2Proof.Machine.execPlp s
  | .rolAcc => Sys2Proof.Machine.execRolAcc s
  | .rolZp d => Sys2Proof.Machine.execRolZp d s
  | .rolZpx d => Sys2Proof.Machine.execRolZpx d s
  | .rolAbs a16 => Sys2Proof.Machine.execRolAbs a16 s
  | .rolAbsx a16 => Sys2Proof.Machine.execRolAbsx a16 s
  | .rorAcc => Sys2Proof.Machine.execRorAcc s
  | .rorZp d => Sys2Proof.Machine.execRorZp d s
  | .rorZpx d => Sys2Proof.Machine.execRorZpx d s
  | .rorAbs a16 => Sys2Proof.Machine.execRorAbs a16 s
  | .rorAbsx a16 => Sys2Proof.Machine.execRorAbsx a16 s
  | .rti => Sys2Proof.Machine.execRti s
  | .rts => Sys2Proof.Machine.execRts s
  | .sbcImm d => Sys2Proof.Machine.execSbcImm d s
  | .sbcZp d => Sys2Proof.Machine.execSbcZp d s
  | .sbcZpx d => Sys2Proof.Machine.execSbcZpx d s
  | .sbcAbs a16 => Sys2Proof.Machine.execSbcAbs a16 s
  | .sbcAbsx a16 => Sys2Proof.Machine.execSbcAbsx a16 s
  | .sbcAbsy a16 => Sys2Proof.Machine.execSbcAbsy a16 s
  | .sbcIndx d => Sys2Proof.Machine.execSbcIndx d s
  | .sbcIndy d => Sys2Proof.Machine.execSbcIndy d s
  | .sec => Sys2Proof.Machine.execSec s
  | .sed => Sys2Proof.Machine.execSed s
  | .sei => Sys2Proof.Machine.execSei s
  | .staZp d => Sys2Proof.Machine.execStaZp d s
  | .staZpx d => Sys2Proof.Machine.execStaZpx d s
  | .staAbs a16 => Sys2Proof.Machine.execStaAbs a16 s
  | .staAbsx a16 => Sys2Proof.Machine.execStaAbsx a16 s
  | .staAbsy a16 => Sys2Proof.Machine.execStaAbsy a16 s
  | .staIndx d => Sys2Proof.Machine.execStaIndx d s
  | .staIndy d => Sys2Proof.Machine.execStaIndy d s
  | .stxZp d => Sys2Proof.Machine.execStxZp d s
  | .stxZpy d => Sys2Proof.Machine.execStxZpy d s
  | .stxAbs a16 => Sys2Proof.Machine.execStxAbs a16 s
  | .styZp d => Sys2Proof.Machine.execStyZp d s
  | .styZpx d => Sys2Proof.Machine.execStyZpx d s
  | .styAbs a16 => Sys2Proof.Machine.execStyAbs a16 s
  | .tax => Sys2Proof.Machine.execTax s
  | .tay => Sys2Proof.Machine.execTay s
  | .tsx => Sys2Proof.Machine.execTsx s
  | .txa => Sys2Proof.Machine.execTxa s
  | .txs => Sys2Proof.Machine.execTxs s
  | .tya => Sys2Proof.Machine.execTya s

end Sys2Proof.Machine
end

