-- ==== Sys2Proof/Decode.lean ====
section
/-! DEFINITION. The decoder and the encoder (30_encoding.md R60 to R71; 40_dispatch_and_addressing.md R84). The decoder's map is
transcribed from the 16 by 16 grid of R66, one definition a grid row; the encoder's bytes from the table by mnemonic and mode. -/

namespace Sys2Proof

/-- What an opcode byte says (R61, R84): an instruction of one byte, or one that still waits for its operand byte, or for the
16-bit value of its two operand bytes. -/
inductive Shape where
  | bare (i : Instr)
  | byte (f : Byte → Instr)
  | word (f : Addr → Instr)

/-- Row 0x of the grid of R66. -/
def opcodeRow0 : List (Byte × Shape) :=
  [(0x00, .bare .brk),
   (0x01, .byte .oraIndx),
   (0x05, .byte .oraZp),
   (0x06, .byte .aslZp),
   (0x08, .bare .php),
   (0x09, .byte .oraImm),
   (0x0A, .bare .aslAcc),
   (0x0D, .word .oraAbs),
   (0x0E, .word .aslAbs)]

/-- Row 1x of the grid of R66. -/
def opcodeRow1 : List (Byte × Shape) :=
  [(0x10, .byte .bpl),
   (0x11, .byte .oraIndy),
   (0x15, .byte .oraZpx),
   (0x16, .byte .aslZpx),
   (0x18, .bare .clc),
   (0x19, .word .oraAbsy),
   (0x1D, .word .oraAbsx),
   (0x1E, .word .aslAbsx)]

/-- Row 2x of the grid of R66. -/
def opcodeRow2 : List (Byte × Shape) :=
  [(0x20, .word .jsr),
   (0x21, .byte .andIndx),
   (0x24, .byte .bitZp),
   (0x25, .byte .andZp),
   (0x26, .byte .rolZp),
   (0x28, .bare .plp),
   (0x29, .byte .andImm),
   (0x2A, .bare .rolAcc),
   (0x2C, .word .bitAbs),
   (0x2D, .word .andAbs),
   (0x2E, .word .rolAbs)]

/-- Row 3x of the grid of R66. -/
def opcodeRow3 : List (Byte × Shape) :=
  [(0x30, .byte .bmi),
   (0x31, .byte .andIndy),
   (0x35, .byte .andZpx),
   (0x36, .byte .rolZpx),
   (0x38, .bare .sec),
   (0x39, .word .andAbsy),
   (0x3D, .word .andAbsx),
   (0x3E, .word .rolAbsx)]

/-- Row 4x of the grid of R66. -/
def opcodeRow4 : List (Byte × Shape) :=
  [(0x40, .bare .rti),
   (0x41, .byte .eorIndx),
   (0x45, .byte .eorZp),
   (0x46, .byte .lsrZp),
   (0x48, .bare .pha),
   (0x49, .byte .eorImm),
   (0x4A, .bare .lsrAcc),
   (0x4C, .word .jmpAbs),
   (0x4D, .word .eorAbs),
   (0x4E, .word .lsrAbs)]

/-- Row 5x of the grid of R66. -/
def opcodeRow5 : List (Byte × Shape) :=
  [(0x50, .byte .bvc),
   (0x51, .byte .eorIndy),
   (0x55, .byte .eorZpx),
   (0x56, .byte .lsrZpx),
   (0x58, .bare .cli),
   (0x59, .word .eorAbsy),
   (0x5D, .word .eorAbsx),
   (0x5E, .word .lsrAbsx)]

/-- Row 6x of the grid of R66. -/
def opcodeRow6 : List (Byte × Shape) :=
  [(0x60, .bare .rts),
   (0x61, .byte .adcIndx),
   (0x65, .byte .adcZp),
   (0x66, .byte .rorZp),
   (0x68, .bare .pla),
   (0x69, .byte .adcImm),
   (0x6A, .bare .rorAcc),
   (0x6C, .word .jmpInd),
   (0x6D, .word .adcAbs),
   (0x6E, .word .rorAbs)]

/-- Row 7x of the grid of R66. -/
def opcodeRow7 : List (Byte × Shape) :=
  [(0x70, .byte .bvs),
   (0x71, .byte .adcIndy),
   (0x75, .byte .adcZpx),
   (0x76, .byte .rorZpx),
   (0x78, .bare .sei),
   (0x79, .word .adcAbsy),
   (0x7D, .word .adcAbsx),
   (0x7E, .word .rorAbsx)]

/-- Row 8x of the grid of R66. -/
def opcodeRow8 : List (Byte × Shape) :=
  [(0x81, .byte .staIndx),
   (0x84, .byte .styZp),
   (0x85, .byte .staZp),
   (0x86, .byte .stxZp),
   (0x88, .bare .dey),
   (0x8A, .bare .txa),
   (0x8C, .word .styAbs),
   (0x8D, .word .staAbs),
   (0x8E, .word .stxAbs)]

/-- Row 9x of the grid of R66. -/
def opcodeRow9 : List (Byte × Shape) :=
  [(0x90, .byte .bcc),
   (0x91, .byte .staIndy),
   (0x94, .byte .styZpx),
   (0x95, .byte .staZpx),
   (0x96, .byte .stxZpy),
   (0x98, .bare .tya),
   (0x99, .word .staAbsy),
   (0x9A, .bare .txs),
   (0x9D, .word .staAbsx)]

/-- Row Ax of the grid of R66. -/
def opcodeRowA : List (Byte × Shape) :=
  [(0xA0, .byte .ldyImm),
   (0xA1, .byte .ldaIndx),
   (0xA2, .byte .ldxImm),
   (0xA4, .byte .ldyZp),
   (0xA5, .byte .ldaZp),
   (0xA6, .byte .ldxZp),
   (0xA8, .bare .tay),
   (0xA9, .byte .ldaImm),
   (0xAA, .bare .tax),
   (0xAC, .word .ldyAbs),
   (0xAD, .word .ldaAbs),
   (0xAE, .word .ldxAbs)]

/-- Row Bx of the grid of R66. -/
def opcodeRowB : List (Byte × Shape) :=
  [(0xB0, .byte .bcs),
   (0xB1, .byte .ldaIndy),
   (0xB4, .byte .ldyZpx),
   (0xB5, .byte .ldaZpx),
   (0xB6, .byte .ldxZpy),
   (0xB8, .bare .clv),
   (0xB9, .word .ldaAbsy),
   (0xBA, .bare .tsx),
   (0xBC, .word .ldyAbsx),
   (0xBD, .word .ldaAbsx),
   (0xBE, .word .ldxAbsy)]

/-- Row Cx of the grid of R66. -/
def opcodeRowC : List (Byte × Shape) :=
  [(0xC0, .byte .cpyImm),
   (0xC1, .byte .cmpIndx),
   (0xC4, .byte .cpyZp),
   (0xC5, .byte .cmpZp),
   (0xC6, .byte .decZp),
   (0xC8, .bare .iny),
   (0xC9, .byte .cmpImm),
   (0xCA, .bare .dex),
   (0xCC, .word .cpyAbs),
   (0xCD, .word .cmpAbs),
   (0xCE, .word .decAbs)]

/-- Row Dx of the grid of R66. -/
def opcodeRowD : List (Byte × Shape) :=
  [(0xD0, .byte .bne),
   (0xD1, .byte .cmpIndy),
   (0xD5, .byte .cmpZpx),
   (0xD6, .byte .decZpx),
   (0xD8, .bare .cld),
   (0xD9, .word .cmpAbsy),
   (0xDD, .word .cmpAbsx),
   (0xDE, .word .decAbsx)]

/-- Row Ex of the grid of R66. -/
def opcodeRowE : List (Byte × Shape) :=
  [(0xE0, .byte .cpxImm),
   (0xE1, .byte .sbcIndx),
   (0xE4, .byte .cpxZp),
   (0xE5, .byte .sbcZp),
   (0xE6, .byte .incZp),
   (0xE8, .bare .inx),
   (0xE9, .byte .sbcImm),
   (0xEA, .bare .nop),
   (0xEC, .word .cpxAbs),
   (0xED, .word .sbcAbs),
   (0xEE, .word .incAbs)]

/-- Row Fx of the grid of R66. -/
def opcodeRowF : List (Byte × Shape) :=
  [(0xF0, .byte .beq),
   (0xF1, .byte .sbcIndy),
   (0xF5, .byte .sbcZpx),
   (0xF6, .byte .incZpx),
   (0xF8, .bare .sed),
   (0xF9, .word .sbcAbsy),
   (0xFD, .word .sbcAbsx),
   (0xFE, .word .incAbsx)]

/-- The 151 assigned opcode bytes (R65, R66). -/
def opcodeMap : List (Byte × Shape) :=
  opcodeRow0 ++ opcodeRow1 ++ opcodeRow2 ++ opcodeRow3 ++ opcodeRow4 ++ opcodeRow5 ++ opcodeRow6 ++ opcodeRow7 ++
  opcodeRow8 ++ opcodeRow9 ++ opcodeRowA ++ opcodeRowB ++ opcodeRowC ++ opcodeRowD ++ opcodeRowE ++ opcodeRowF

/-- `Decode(opcode)` (R84): a lookup on the whole opcode byte, `none` for the 105 illegal ones (R67). It depends on nothing else. -/
def decodeOpcode (op : Byte) : Option Shape := (opcodeMap.find? (fun row => row.1 == op)).map (·.2)

/-- The 16-bit value of two operand bytes, the lower-addressed one the low byte (R42, R62). -/
def operandWord (lo hi : Byte) : Addr := hi ++ lo

/-- Why a list of bytes is no instruction. -/
inductive DecodeError where
  /-- There is no opcode byte. -/
  | noOpcode
  /-- The opcode byte has no row in R66 (R67). -/
  | illegalOpcode (opcode : Byte)
  /-- The operand bytes the mode needs are not all there (R63). -/
  | missingOperand (opcode : Byte)
  deriving DecidableEq, Repr

/-- The instruction at the front of a list of bytes, and the bytes after it (R60 to R66). Total: it rejects by name. -/
def decode : List Byte → Except DecodeError (Instr × List Byte)
  | [] => .error .noOpcode
  | op :: rest =>
    match decodeOpcode op with
    | none => .error (.illegalOpcode op)
    | some (.bare i) => .ok (i, rest)
    | some (.byte f) =>
      match rest with
      | d :: rest' => .ok (f d, rest')
      | [] => .error (.missingOperand op)
    | some (.word f) =>
      match rest with
      | lo :: hi :: rest' => .ok (f (operandWord lo hi), rest')
      | _ => .error (.missingOperand op)

/-- The number of operand bytes each mode has (R63). -/
def Mode.operandBytes : Mode → Nat
  | .imp => 0
  | .acc => 0
  | .imm => 1
  | .zp => 1
  | .zpx => 1
  | .zpy => 1
  | .abs => 2
  | .absx => 2
  | .absy => 2
  | .ind => 2
  | .indx => 1
  | .indy => 1
  | .rel => 1

/-- The length of an instruction in bytes (R60, R63). -/
def Instr.length (i : Instr) : Nat := 1 + i.mode.operandBytes

/-- The operand bytes of a 16-bit value, low byte first (R42, R61). -/
def wordBytes (a16 : Addr) : List Byte := [a16.extractLsb' 0 8, a16.extractLsb' 8 8]

/-- The operand bytes of a memory operand (R61, R62). -/
def MemForm.bytes : MemForm → List Byte
  | .zp d => [d]
  | .zpx d => [d]
  | .zpy d => [d]
  | .abs a16 => wordBytes a16
  | .absx a16 => wordBytes a16
  | .absy a16 => wordBytes a16
  | .indx d => [d]
  | .indy d => [d]

/-- The operand bytes of an operand (R61, R62). -/
def Operand.bytes : Operand → List Byte
  | .imp => []
  | .acc => []
  | .imm d => [d]
  | .mem m => m.bytes
  | .ind a16 => wordBytes a16
  | .rel d => [d]

/-- The opcode byte of an instruction: the table of R66 by mnemonic and mode. -/
def Instr.opcode : Instr → Byte
  | .adcImm _ => 0x69
  | .adcZp _ => 0x65
  | .adcZpx _ => 0x75
  | .adcAbs _ => 0x6D
  | .adcAbsx _ => 0x7D
  | .adcAbsy _ => 0x79
  | .adcIndx _ => 0x61
  | .adcIndy _ => 0x71
  | .andImm _ => 0x29
  | .andZp _ => 0x25
  | .andZpx _ => 0x35
  | .andAbs _ => 0x2D
  | .andAbsx _ => 0x3D
  | .andAbsy _ => 0x39
  | .andIndx _ => 0x21
  | .andIndy _ => 0x31
  | .aslAcc => 0x0A
  | .aslZp _ => 0x06
  | .aslZpx _ => 0x16
  | .aslAbs _ => 0x0E
  | .aslAbsx _ => 0x1E
  | .bcc _ => 0x90
  | .bcs _ => 0xB0
  | .beq _ => 0xF0
  | .bitZp _ => 0x24
  | .bitAbs _ => 0x2C
  | .bmi _ => 0x30
  | .bne _ => 0xD0
  | .bpl _ => 0x10
  | .brk => 0x00
  | .bvc _ => 0x50
  | .bvs _ => 0x70
  | .clc => 0x18
  | .cld => 0xD8
  | .cli => 0x58
  | .clv => 0xB8
  | .cmpImm _ => 0xC9
  | .cmpZp _ => 0xC5
  | .cmpZpx _ => 0xD5
  | .cmpAbs _ => 0xCD
  | .cmpAbsx _ => 0xDD
  | .cmpAbsy _ => 0xD9
  | .cmpIndx _ => 0xC1
  | .cmpIndy _ => 0xD1
  | .cpxImm _ => 0xE0
  | .cpxZp _ => 0xE4
  | .cpxAbs _ => 0xEC
  | .cpyImm _ => 0xC0
  | .cpyZp _ => 0xC4
  | .cpyAbs _ => 0xCC
  | .decZp _ => 0xC6
  | .decZpx _ => 0xD6
  | .decAbs _ => 0xCE
  | .decAbsx _ => 0xDE
  | .dex => 0xCA
  | .dey => 0x88
  | .eorImm _ => 0x49
  | .eorZp _ => 0x45
  | .eorZpx _ => 0x55
  | .eorAbs _ => 0x4D
  | .eorAbsx _ => 0x5D
  | .eorAbsy _ => 0x59
  | .eorIndx _ => 0x41
  | .eorIndy _ => 0x51
  | .incZp _ => 0xE6
  | .incZpx _ => 0xF6
  | .incAbs _ => 0xEE
  | .incAbsx _ => 0xFE
  | .inx => 0xE8
  | .iny => 0xC8
  | .jmpAbs _ => 0x4C
  | .jmpInd _ => 0x6C
  | .jsr _ => 0x20
  | .ldaImm _ => 0xA9
  | .ldaZp _ => 0xA5
  | .ldaZpx _ => 0xB5
  | .ldaAbs _ => 0xAD
  | .ldaAbsx _ => 0xBD
  | .ldaAbsy _ => 0xB9
  | .ldaIndx _ => 0xA1
  | .ldaIndy _ => 0xB1
  | .ldxImm _ => 0xA2
  | .ldxZp _ => 0xA6
  | .ldxZpy _ => 0xB6
  | .ldxAbs _ => 0xAE
  | .ldxAbsy _ => 0xBE
  | .ldyImm _ => 0xA0
  | .ldyZp _ => 0xA4
  | .ldyZpx _ => 0xB4
  | .ldyAbs _ => 0xAC
  | .ldyAbsx _ => 0xBC
  | .lsrAcc => 0x4A
  | .lsrZp _ => 0x46
  | .lsrZpx _ => 0x56
  | .lsrAbs _ => 0x4E
  | .lsrAbsx _ => 0x5E
  | .nop => 0xEA
  | .oraImm _ => 0x09
  | .oraZp _ => 0x05
  | .oraZpx _ => 0x15
  | .oraAbs _ => 0x0D
  | .oraAbsx _ => 0x1D
  | .oraAbsy _ => 0x19
  | .oraIndx _ => 0x01
  | .oraIndy _ => 0x11
  | .pha => 0x48
  | .php => 0x08
  | .pla => 0x68
  | .plp => 0x28
  | .rolAcc => 0x2A
  | .rolZp _ => 0x26
  | .rolZpx _ => 0x36
  | .rolAbs _ => 0x2E
  | .rolAbsx _ => 0x3E
  | .rorAcc => 0x6A
  | .rorZp _ => 0x66
  | .rorZpx _ => 0x76
  | .rorAbs _ => 0x6E
  | .rorAbsx _ => 0x7E
  | .rti => 0x40
  | .rts => 0x60
  | .sbcImm _ => 0xE9
  | .sbcZp _ => 0xE5
  | .sbcZpx _ => 0xF5
  | .sbcAbs _ => 0xED
  | .sbcAbsx _ => 0xFD
  | .sbcAbsy _ => 0xF9
  | .sbcIndx _ => 0xE1
  | .sbcIndy _ => 0xF1
  | .sec => 0x38
  | .sed => 0xF8
  | .sei => 0x78
  | .staZp _ => 0x85
  | .staZpx _ => 0x95
  | .staAbs _ => 0x8D
  | .staAbsx _ => 0x9D
  | .staAbsy _ => 0x99
  | .staIndx _ => 0x81
  | .staIndy _ => 0x91
  | .stxZp _ => 0x86
  | .stxZpy _ => 0x96
  | .stxAbs _ => 0x8E
  | .styZp _ => 0x84
  | .styZpx _ => 0x94
  | .styAbs _ => 0x8C
  | .tax => 0xAA
  | .tay => 0xA8
  | .tsx => 0xBA
  | .txa => 0x8A
  | .txs => 0x9A
  | .tya => 0x98

/-- The bytes of an instruction in rising order of address: the opcode, then the operand bytes (R60, R61). -/
def encode (i : Instr) : List Byte := i.opcode :: i.operand.bytes

/-- The metadata table of R71: the mnemonic and the mode of an opcode byte, for the external assembler and disassembler. -/
def opcodeInfo (op : Byte) : Option (Mnemonic × Mode) :=
  match decodeOpcode op with
  | none => none
  | some (.bare i) => some (i.mnemonic, i.mode)
  | some (.byte f) => some ((f 0).mnemonic, (f 0).mode)
  | some (.word f) => some ((f 0).mnemonic, (f 0).mode)

/-- The three bytes of the longest instruction, from a number whose bit 0 is bit 0 of the first byte; every bit from `nbits`
up is 0. -/
def tableBytes (nbits w : Nat) : List Byte :=
  let v := w % 2 ^ nbits
  [BitVec.ofNat 8 v, BitVec.ofNat 8 (v / 256), BitVec.ofNat 8 (v / 65536)]

/-- The instruction the decoder reads from bits numbered as spec/opcode_table.json numbers them: bit 0 is the least significant
bit of the first byte, the second byte is bits 15 to 8, and every bit from `nbits` up is 0. -/
def decodeTableWord (nbits w : Nat) : Option Instr :=
  match decode (tableBytes nbits w) with
  | .ok (i, _) => some i
  | .error _ => none

end Sys2Proof
end

