-- ==== Sys2Proof/Machine/Fetch.lean ====
section
/-! DEFINITION. The dispatch engine's reading of one instruction from the instruction stream (40_dispatch_and_addressing.md R80,
R82, R84): opcode fetch, decode, operand fetches. -/

namespace Sys2Proof.Machine

/-- The operand bytes of an instruction, fetched in stream order: the low byte of a 16-bit operand first (R61, R91, R101). -/
def fetchOperand (shape : Shape) (s : State) : Fetched Instr :=
  match shape with
  | .bare i => .ok (i, s)
  | .byte f =>
    match fetchByte s with
    | .error e => .error e
    | .ok (d, s1) => .ok (f d, s1)
  | .word f =>
    match fetchByte s with
    | .error e => .error e
    | .ok (lo, s1) =>
      match fetchByte s1 with
      | .error e => .error e
      | .ok (hi, s2) => .ok (f (operandWord lo hi), s2)

/-- The instruction at `PC`, and the state with `PC` past it; or a fault, the first in the order of R264: opcode fetch, decode,
first operand byte, second operand byte. An illegal opcode is reported with the address it was fetched from (R262). -/
def fetchInstr (s : State) : Fetched Instr :=
  match fetchByte s with
  | .error e => .error e
  | .ok (op, s1) =>
    match decodeOpcode op with
    | none => raise (.illegalOpcode op s.pc) s1
    | some shape => fetchOperand shape s1

/-- The state when a step faults: `PC` past the bytes that were fetched, nothing else changed (R263). For a state in which the
fetch raises nothing it is that state. -/
def faultState (s : State) : State :=
  match fetchInstr s with
  | .error e => e.2
  | .ok _ => s

/-- Where `State.withFetchWord` puts an instruction: at `PC`, or at the highest address from which three bytes can lie below a
`CODE_END` of 0xFFFF. -/
def fetchBase (s : State) : Addr := if s.pc.toNat + 3 ≤ Config.loadLimit then s.pc else 0xFFFC

/-- The bytes stored where the next step fetches, the window's end moved up to take them in if it does not, and a run that has
not ended. Memory elsewhere, the window's start and all other state stay. -/
def placeInstr (s : State) (bytes : List Byte) : State :=
  let base := fetchBase s
  { s.writeBytes base bytes with
    pc := base
    codeEnd := if s.codeEnd.toNat < base.toNat + 3 then base + 3 else s.codeEnd
    terminated := false }

end Sys2Proof.Machine
end

