-- ==== Sys2Proof/Machine/Step.lean ====
section
/-! DEFINITION. One step (40_dispatch_and_addressing.md R80, R81). -/

namespace Sys2Proof.Machine

/-- `Step()` (R80): one whole instruction. With `TERMINATED == 1` there is no step (R81), so the model refuses it. -/
def step (s : State) : Host.Outcome State Fault Refusal :=
  if s.terminated then .refused .runEnded
  else
    match fetchInstr s with
    | .error e => .fault e.1
    | .ok (i, s') => exec i s'

/-- `s` with the instruction whose bits are `w` stored where `step` fetches its next one. It stands for the load a host must make
before the first instruction can run (R291); assumption log 4. -/
def State.withFetchWord (s : State) (nbits w : Nat) : State := placeInstr s (tableBytes nbits w)

end Sys2Proof.Machine
end

