-- ==== Sys2Proof/Machine/HostOps.lean ====
section
/-! DEFINITION. The host interface (70_reset_and_hazards.md R290 to R308): what the outside world can do to the machine, each
operation between two steps (R307). `Step()` as a host operation is `step` (R296). -/

namespace Sys2Proof.Machine

/-- `Reset()` (R290): the one reset state, whatever the state before. -/
def hostReset (_s : State) : State := State.reset

/-- The load succeeds: `address + n <= 0xFFFF`, an integer sum (R293). -/
def loadFits (bytes : List Byte) (address : Addr) : Bool := decide (address.toNat + bytes.length ≤ Config.loadLimit)

/-- `LoadData(bytes, address, clear_first) -> bool` (R292): touches memory only, and nothing at all when it fails. `clear_first`
is true by default. -/
def loadData (bytes : List Byte) (address : Addr) (s : State) (clearFirst : Bool := true) : Bool × State :=
  if loadFits bytes address then (true, (if clearFirst then s.clearMemory else s).writeBytes address bytes)
  else (false, s)

/-- `LoadExecutable(bytes, address) -> bool` (R294): memory cleared, the bytes placed, the window set, `PC` at the program, the
pending-JSR counter and the termination flag cleared; `A`, `X`, `Y`, `P`, `S` kept (D25); nothing at all when it fails. -/
def loadExecutable (bytes : List Byte) (address : Addr) (s : State) : Bool × State :=
  if loadFits bytes address then
    (true, { s.clearMemory.writeBytes address bytes with
      codeStart := address
      codeEnd := address + BitVec.ofNat 16 bytes.length
      pc := address
      jsrcnt := 0
      terminated := false })
  else (false, s)

/-- The end-of-data predicate (R300): `PC >= CODE_END`, the comparison `FetchByte` makes. -/
def atEndOfData (s : State) : Bool := decide (s.codeEnd ≤ s.pc)

/-- Where a run of at most some number of steps stands. -/
inductive RunOutcome where
  /-- `Ended`: the loop's predicate failed in this state (R300). -/
  | ended (final : State)
  /-- A step faulted; the state is that at the fault (R263, R301). -/
  | faulted (f : Fault) (atFault : State)
  /-- A step was refused; no run gets here, since the loop asks for no step after the end. -/
  | refused (r : Refusal) (before : State)
  /-- The fuel is used up and the loop would go on. -/
  | running (now : State)
  deriving DecidableEq, Repr

/-- `Run()` (R300) cut off after `fuel` steps, since nothing bounds a run (R315). -/
def run : Nat → State → RunOutcome
  | fuel, s =>
    if s.terminated || atEndOfData s then .ended s
    else
      match fuel with
      | 0 => .running s
      | k + 1 =>
        match step s with
        | .next s' => run k s'
        | .fault f => .faulted f (faultState s)
        | .refused r => .refused r s

/-- Why a run that ended did (R301). -/
inductive EndReason where
  | endedByRts
  | endedAtEndOfData
  deriving DecidableEq, Repr

/-- The outcome a final state shows (R301): `TERMINATED` tells an ending by RTS from the end of the data. -/
def endReason (final : State) : EndReason := if final.terminated then .endedByRts else .endedAtEndOfData

/-- What `GetState` answers (R303). -/
structure Registers where
  a : Byte
  x : Byte
  y : Byte
  pc : Addr
  flags : Byte
  deriving DecidableEq, Repr

/-- `GetState()` (R303): no `S`, no control state; it changes nothing. -/
def getState (s : State) : Registers := { a := s.a, x := s.x, y := s.y, pc := s.pc, flags := s.p }

/-- `GetS()` (R305; 90_conflicts.md C5). -/
def getS (s : State) : Byte := s.sp

/-- The five optional values of `SetState` (R304). -/
structure Patch where
  a : Option Byte := none
  x : Option Byte := none
  y : Option Byte := none
  pc : Option Addr := none
  flags : Option Byte := none
  deriving DecidableEq, Repr

/-- `SetState(a?, x?, y?, pc?, flags?)` (R304): exactly the fields present; no check. -/
def setState (patch : Patch) (s : State) : State :=
  { s with
    a := patch.a.getD s.a
    x := patch.x.getD s.x
    y := patch.y.getD s.y
    pc := patch.pc.getD s.pc
    p := patch.flags.getD s.p }

/-- `DumpMemory(address, length) -> bytes` (R306): the bytes from `address` up; refused, with no result, when
`address + length > 0x10000`. -/
def dumpMemory (address : Addr) (length : Nat) (s : State) : Except Refusal (List Byte) :=
  if address.toNat + length ≤ Config.dumpLimit then .ok ((List.range length).map (fun k => s.mem.read (address.toNat + k)))
  else .error (.dumpOutOfRange address length)

end Sys2Proof.Machine
end

