-- ==== Sys2Proof/Machine/Transactions.lean ====
section
/-! DEFINITION. The memory transactions of a step: the block's boundary toward memory is `MemRead` and `MemWrite` (00_scope.md R3),
and a step performs exactly the accesses its pseudocode lists, in that order (20_memory.md R58): no dummy read, no double write.
Nothing in `step` reads these lists; they say what a recording of the accesses would hold. -/

namespace Sys2Proof.Machine

/-- One access: its address and the byte read or written (R44, R45, R47). -/
inductive Transaction where
  | read (addr : Addr) (v : Byte)
  | write (addr : Addr) (v : Byte)
  deriving DecidableEq, Repr

/-- The read of one cell. -/
def State.readTransaction (s : State) (addr : Addr) : Transaction := .read addr (s.read addr)

/-- What an instruction does at its effective address or on the stack, besides the resolver's pointer reads. -/
inductive Access where
  /-- No data access. -/
  | nothing
  /-- One read of the operand (R100). -/
  | readOperand
  /-- One write of a register (R114). -/
  | store (r : Reg)
  /-- One read and one write of the same cell: a shift (R140). -/
  | shiftCell (op : ShiftOp)
  /-- One read and one write of the same cell: an increment or decrement (R184). -/
  | addToCell (delta : Byte)
  /-- A push of `A` (R131). -/
  | pushA
  /-- A push of `P` (R132). -/
  | pushP
  /-- One pop (R133, R134). -/
  | pop
  /-- The two pushes of JSR (R202). -/
  | call
  /-- The two pops of a returning RTS (R204). -/
  | ret
  deriving DecidableEq, Repr

/-- The access of each mnemonic. -/
def accessOf : Mnemonic → Access
  | .adc => .readOperand
  | .and => .readOperand
  | .asl => .shiftCell .asl
  | .bcc => .nothing
  | .bcs => .nothing
  | .beq => .nothing
  | .bit => .readOperand
  | .bmi => .nothing
  | .bne => .nothing
  | .bpl => .nothing
  | .brk => .nothing
  | .bvc => .nothing
  | .bvs => .nothing
  | .clc => .nothing
  | .cld => .nothing
  | .cli => .nothing
  | .clv => .nothing
  | .cmp => .readOperand
  | .cpx => .readOperand
  | .cpy => .readOperand
  | .dec => .addToCell (-1)
  | .dex => .nothing
  | .dey => .nothing
  | .eor => .readOperand
  | .inc => .addToCell 1
  | .inx => .nothing
  | .iny => .nothing
  | .jmp => .nothing
  | .jsr => .call
  | .lda => .readOperand
  | .ldx => .readOperand
  | .ldy => .readOperand
  | .lsr => .shiftCell .lsr
  | .nop => .nothing
  | .ora => .readOperand
  | .pha => .pushA
  | .php => .pushP
  | .pla => .pop
  | .plp => .pop
  | .rol => .shiftCell .rol
  | .ror => .shiftCell .ror
  | .rti => .nothing
  | .rts => .ret
  | .sbc => .readOperand
  | .sec => .nothing
  | .sed => .nothing
  | .sei => .nothing
  | .sta => .store .a
  | .stx => .store .x
  | .sty => .store .y
  | .tax => .nothing
  | .tay => .nothing
  | .tsx => .nothing
  | .txa => .nothing
  | .txs => .nothing
  | .tya => .nothing

/-- The pointer reads of the resolver in a memory mode (R95, R96). -/
def pointerReads (s : State) : MemForm → List Transaction
  | .indx d => [s.readTransaction (zeroPage (d + s.x)), s.readTransaction (zeroPage (d + s.x + 1))]
  | .indy d => [s.readTransaction (zeroPage d), s.readTransaction (zeroPage (d + 1))]
  | .zp _ => []
  | .zpx _ => []
  | .zpy _ => []
  | .abs _ => []
  | .absx _ => []
  | .absy _ => []

/-- The accesses at one memory cell. -/
def cellTransactions (s : State) (addr : Addr) : Access → List Transaction
  | .readOperand => [s.readTransaction addr]
  | .store r => [.write addr (s.reg r)]
  | .shiftCell op => [s.readTransaction addr, .write addr (shift op (s.read addr) (s.flag .c)).1]
  | .addToCell delta => [s.readTransaction addr, .write addr (s.read addr + delta)]
  | .nothing => []
  | .pushA => []
  | .pushP => []
  | .pop => []
  | .call => []
  | .ret => []

/-- The accesses on the stack (R52, R53). -/
def stackTransactions (s : State) : Access → List Transaction
  | .pushA => [.write (stackAddr s.sp) s.a]
  | .pushP => [.write (stackAddr s.sp) s.p]
  | .pop => [s.readTransaction (stackAddr (s.sp + 1))]
  | .call => [.write (stackAddr s.sp) (highByte s.pc), .write (stackAddr (s.sp - 1)) (lowByte s.pc)]
  | .ret =>
    if 0 < s.jsrcnt then [s.readTransaction (stackAddr (s.sp + 1)), s.readTransaction (stackAddr (s.sp + 2))] else []
  | .nothing => []
  | .readOperand => []
  | .store _ => []
  | .shiftCell _ => []
  | .addToCell _ => []

/-- The accesses of an instruction after all its bytes are fetched, in order (R58). A memory operand's cell is accessed after its
pointer; JMP indirect reads the two target bytes (R94); JMP and JSR absolute access no cell at their operand. -/
def dataTransactions (i : Instr) (s : State) : List Transaction :=
  match i.operand with
  | .mem m => pointerReads s m ++ cellTransactions s (effectiveAddress s m) (accessOf i.mnemonic) ++ stackTransactions s (accessOf i.mnemonic)
  | .ind ptr => [s.readTransaction ptr, s.readTransaction (ptr + 1)]
  | .imp => stackTransactions s (accessOf i.mnemonic)
  | .acc => []
  | .imm _ => []
  | .rel _ => []

/-- The stream reads of a step from `first` up to, and without, the `PC` it ended the fetch with. -/
def streamReads (s : State) (first : Addr) : Nat → List Transaction
  | 0 => []
  | n + 1 => s.readTransaction first :: streamReads s (first + 1) n

/-- All memory transactions of a step (R58): the stream bytes fetched, then the instruction's own. DESIGN CHOICE (assumption log 9,
safe): with TERMINATED = 1 there is no step (R81), the spec says nothing of a recording there, and the model lists no access; of a
step that faults (R263) it lists the stream reads that succeeded, and no others. -/
def stepTransactions (s : State) : List Transaction :=
  if s.terminated then []
  else
    match fetchInstr s with
    | .error e => streamReads s s.pc (e.2.pc - s.pc).toNat
    | .ok (i, s') => streamReads s s.pc (s'.pc - s.pc).toNat ++ dataTransactions i s'

/-- A memory after a list of transactions. -/
def Memory.replay (m : Memory) : List Transaction → Memory
  | [] => m
  | .read _ _ :: rest => Memory.replay m rest
  | .write addr v :: rest => Memory.replay (m.write addr.toNat v) rest

end Sys2Proof.Machine
end

