-- ==== Sys2Proof/Safety.lean ====
section
/-! DEFINITION. What counts as a safe run, and the terms the statements use: the invariant, frames (what an instruction leaves
unchanged), what each kind of result is in plain numbers, and the whole-machine tables of 10_state.md transcribed. -/

namespace Sys2Proof.Machine

/-! ### The invariant -/

/-- What every reachable state satisfies: memory in canonical form (R40), no JSR pending once the run has ended (R25, R204), and a
window whose start is not above its end (R26). -/
abbrev State.Inv (s : State) : Prop :=
  s.mem.wf = true ∧ (s.terminated = true → s.jsrcnt = 0) ∧ s.codeStart ≤ s.codeEnd

/-! ### Frames -/

/-- Every general register not in `regs`, every bit of `P` not in `flags`, every cell not in `cells` and the window are as before. -/
structure Frame (regs : List Reg) (flags : List Flag) (cells : List Addr) (s t : State) : Prop where
  regs : ∀ q, q ∉ regs → t.reg q = s.reg q
  flags : ∀ f, f ∉ flags → t.flag f = s.flag f
  cells : ∀ addr, addr ∉ cells → t.read addr = s.read addr
  window : t.codeStart = s.codeStart ∧ t.codeEnd = s.codeEnd

/-- `S`, `JSRCNT`, `TERMINATED` and `PC` are as before. `PC` here is its value after the instruction's bytes are fetched. -/
structure SameControl (s t : State) : Prop where
  sp : t.sp = s.sp
  jsrcnt : t.jsrcnt = s.jsrcnt
  terminated : t.terminated = s.terminated
  pc : t.pc = s.pc

/-- One general register receives a value; apart from it and the listed flags nothing changes. -/
structure WritesReg (q : Reg) (v : Byte) (flags : List Flag) (s t : State) : Prop where
  value : t.reg q = v
  frame : Frame [q] flags [] s t
  control : SameControl s t

/-- One cell receives a value; apart from it and the listed flags nothing changes. -/
structure WritesCell (addr : Addr) (v : Byte) (flags : List Flag) (s t : State) : Prop where
  value : t.read addr = v
  frame : Frame [] flags [addr] s t
  control : SameControl s t

/-- Apart from the listed flags nothing changes. -/
structure WritesFlags (flags : List Flag) (s t : State) : Prop where
  frame : Frame [] flags [] s t
  control : SameControl s t

/-- Z and N as `SetZN(v)` leaves them (R22), in numbers. -/
structure ShowsZN (v : Byte) (t : State) : Prop where
  zero : t.flag .z = decide (v.toNat = 0)
  negative : t.flag .n = decide (128 ≤ v.toNat)

/-- The instruction's bytes are these (R61, R66), and it completes: `exec` answers a next state of which `post` holds. -/
def Runs (i : Instr) (bytes : List Byte) (s : State) (post : State → Prop) : Prop :=
  encode i = bytes ∧ ∃ t, exec i s = .next t ∧ post t

/-- `m` is the 8-bit source operand of an instruction in immediate or memory mode: `Operand(mode)` (R100). -/
def OperandIs (i : Instr) (s : State) (m : Byte) : Prop :=
  i.operand = .imm m ∨ ∃ f, i.operand = .mem f ∧ m = s.read (effectiveAddress s f)

/-- An instruction executed a number of times, without fetches between. -/
def repeatInstr : Nat → Instr → State → Result
  | 0, _, s => .next s
  | n + 1, i, s =>
    match exec i s with
    | .next t => repeatInstr n i t
    | .fault f => .fault f
    | .refused r => .refused r

/-! ### Results in plain numbers -/

/-- A load or a transfer with flags (R110, R118): the register, Z and N. -/
def LoadPost (q : Reg) (v : Byte) (s t : State) : Prop := WritesReg q v [.z, .n] s t ∧ ShowsZN v t

/-- The result and the bit shifted out of R141 to R144 on the operand as a number. -/
def ShiftSpec : ShiftOp → Byte → Bool → Byte → Bool → Prop
  | .asl, v, _, r, out => r.toNat = 2 * v.toNat % 256 ∧ out = decide (128 ≤ v.toNat)
  | .lsr, v, _, r, out => r.toNat = v.toNat / 2 ∧ out = decide (v.toNat % 2 = 1)
  | .rol, v, c, r, out => r.toNat = (2 * v.toNat + c.toNat) % 256 ∧ out = decide (128 ≤ v.toNat)
  | .ror, v, c, r, out => r.toNat = v.toNat / 2 + 128 * c.toNat ∧ out = decide (v.toNat % 2 = 1)

/-- A shift in Accumulator mode (R140). -/
def ShiftAccPost (op : ShiftOp) (s t : State) : Prop :=
  ShiftSpec op s.a (s.flag .c) t.a (t.flag .c) ∧ WritesReg .a t.a [.c, .z, .n] s t ∧ ShowsZN t.a t

/-- A shift of one cell (R140): `A` is among the registers that keep their value. -/
def ShiftMemPost (op : ShiftOp) (addr : Addr) (s t : State) : Prop :=
  ShiftSpec op (s.read addr) (s.flag .c) (t.read addr) (t.flag .c) ∧ WritesCell addr (t.read addr) [.c, .z, .n] s t ∧
  ShowsZN (t.read addr) t

/-- BIT (R154). -/
def BitPost (m : Byte) (s t : State) : Prop :=
  WritesFlags [.n, .v, .z] s t ∧ t.flag .n = m.getLsbD 7 ∧ t.flag .v = m.getLsbD 6 ∧ t.flag .z = decide ((s.a &&& m) = 0)

/-- A valid BCD byte in numbers (00_scope.md section 7). -/
def ValidBcd (b : Byte) : Prop := b.toNat / 16 ≤ 9 ∧ b.toNat % 16 ≤ 9

/-- `dec(b)` (R165). -/
def decValue (b : Byte) : Int := 10 * (b.toNat / 16 : Nat) + (b.toNat % 16 : Nat)

/-- `r` is `bcd(n)` for the `n` from 0 to 99 (R165). -/
def IsBcdOf (r : Byte) (n : Int) : Prop := (r.toNat : Int) = 16 * (n / 10) + n % 10

/-- A binary sum or difference whose exact value is `u` on unsigned operands and `w` on two's-complement ones (R161): the result,
Carry when `carry` holds, Overflow when `w` is outside -128 to 127, Z and N; C, V, Z, N are the flags written. -/
def BinaryPost (u w : Int) (carry : Prop) [Decidable carry] (s t : State) : Prop :=
  (t.a.toNat : Int) = u % 256 ∧ t.flag .c = decide carry ∧ t.flag .v = decide (w < -128 ∨ 127 < w) ∧ ShowsZN t.a t ∧
  WritesReg .a t.a [.c, .v, .z, .n] s t

/-- ADC with operand `m` (R160 to R162, R164 to R166, R168). -/
def AdcPost (m : Byte) (s t : State) : Prop :=
  (s.flag .d = false →
    BinaryPost (s.a.toNat + m.toNat + (s.flag .c).toNat) (s.a.toInt + m.toInt + (s.flag .c).toNat)
      (255 < s.a.toNat + m.toNat + (s.flag .c).toNat) s t) ∧
  (s.flag .d = true →
    WritesReg .a t.a [.c] s t ∧
    (ValidBcd s.a ∧ ValidBcd m →
      IsBcdOf t.a ((decValue s.a + decValue m + (s.flag .c).toNat) % 100) ∧
      t.flag .c = decide (99 < decValue s.a + decValue m + (s.flag .c).toNat)) ∧
    (¬(ValidBcd s.a ∧ ValidBcd m) → (t.a, t.flag .c) = Config.bcdInvalid .adc s.a m (s.flag .c)))

/-- SBC with operand `m` (R160, R161, R163 to R165, R167, R168). -/
def SbcPost (m : Byte) (s t : State) : Prop :=
  (s.flag .d = false →
    BinaryPost (s.a.toNat - m.toNat - (1 - (s.flag .c).toNat)) (s.a.toInt - m.toInt - (1 - (s.flag .c).toNat))
      ((0 : Int) ≤ s.a.toNat - m.toNat - (1 - (s.flag .c).toNat)) s t) ∧
  (s.flag .d = true →
    WritesReg .a t.a [.c] s t ∧
    (ValidBcd s.a ∧ ValidBcd m →
      IsBcdOf t.a ((decValue s.a - decValue m - (1 - (s.flag .c).toNat)) % 100) ∧
      t.flag .c = decide (0 ≤ decValue s.a - decValue m - (1 - (s.flag .c).toNat))) ∧
    (¬(ValidBcd s.a ∧ ValidBcd m) → (t.a, t.flag .c) = Config.bcdInvalid .sbc s.a m (s.flag .c)))

/-- A compare of `r` with `m` (R180). -/
def ComparePost (r m : Byte) (s t : State) : Prop :=
  WritesFlags [.z, .c, .n] s t ∧ t.flag .z = decide (r.toNat = m.toNat) ∧ t.flag .c = decide (m.toNat ≤ r.toNat) ∧
  t.flag .n = decide (128 ≤ ((r.toNat : Int) - m.toNat) % 256)

/-- An increment or decrement by `delta` (1 or -1) of one cell (R184 to R186). -/
def CellDeltaPost (delta : Int) (addr : Addr) (s t : State) : Prop :=
  ((t.read addr).toNat : Int) = ((s.read addr).toNat + delta) % 256 ∧ WritesCell addr (t.read addr) [.z, .n] s t ∧
  ShowsZN (t.read addr) t

/-- An increment or decrement by `delta` of a register (R184, R187 to R190). -/
def RegDeltaPost (delta : Int) (q : Reg) (s t : State) : Prop :=
  ((t.reg q).toNat : Int) = ((s.reg q).toNat + delta) % 256 ∧ WritesReg q (t.reg q) [.z, .n] s t ∧ ShowsZN (t.reg q) t

/-- A push of `v` (R52): the cell at `0x0100 + S`, and `S` down by one modulo 256. -/
def PushPost (v : Byte) (s t : State) : Prop :=
  t.read (stackAddr s.sp) = v ∧ t.sp.toNat = (s.sp.toNat + 255) % 256 ∧ Frame [] [] [stackAddr s.sp] s t ∧
  t.jsrcnt = s.jsrcnt ∧ t.terminated = s.terminated ∧ t.pc = s.pc

/-- A control transfer to `target`, given as a number, or none (R200): only `PC` may change. -/
def JumpPost (target : Int) (s t : State) : Prop :=
  (t.pc.toNat : Int) = target ∧ Frame [] [] [] s t ∧ t.sp = s.sp ∧ t.jsrcnt = s.jsrcnt ∧ t.terminated = s.terminated

/-- A branch under the condition `cond` (R97, R220): the displacement is two's complement, the sum modulo 65536. -/
def BranchPost (cond : Bool) (d : Byte) (s t : State) : Prop :=
  JumpPost (if cond then ((s.pc.toNat : Int) + d.toInt) % 65536 else s.pc.toNat) s t

/-- JSR to `a16` (R202). -/
def JsrPost (a16 : Addr) (s t : State) : Prop :=
  t.pc = a16 ∧ (t.read (stackAddr s.sp)).toNat = s.pc.toNat / 256 ∧
  (t.read (stackAddr (s.sp - 1))).toNat = s.pc.toNat % 256 ∧ t.sp.toNat = (s.sp.toNat + 254) % 256 ∧
  t.jsrcnt = s.jsrcnt + 1 ∧ t.terminated = s.terminated ∧ Frame [] [] [stackAddr s.sp, stackAddr (s.sp - 1)] s t

/-- RTS (R204). -/
def RtsPost (s t : State) : Prop :=
  Frame [] [] [] s t ∧
  (0 < s.jsrcnt →
    t.pc.toNat = (s.read (stackAddr (s.sp + 2))).toNat * 256 + (s.read (stackAddr (s.sp + 1))).toNat ∧
    t.sp.toNat = (s.sp.toNat + 2) % 256 ∧ t.jsrcnt + 1 = s.jsrcnt ∧ t.terminated = s.terminated) ∧
  (s.jsrcnt = 0 → t.terminated = true ∧ t.pc = s.pc ∧ t.sp = s.sp ∧ t.jsrcnt = 0)

/-- A flag instruction (R240). -/
def FlagPost (f : Flag) (b : Bool) (s t : State) : Prop := t.flag f = b ∧ WritesFlags [f] s t

/-! ### Whole-machine tables -/

/-- A function over the next state of a result; a fault or a refusal stays. -/
def mapNext (g : State → State) : Result → Result
  | .next t => .next (g t)
  | .fault f => .fault f
  | .refused r => .refused r

/-- The four shifts. -/
def shiftMnemonics : List Mnemonic := [.asl, .lsr, .rol, .ror]

/-- The column "written by" of R11. -/
def Reg.writtenBy (i : Instr) : Reg → Bool
  | .a => [Mnemonic.lda, .txa, .tya, .pla, .and, .eor, .ora, .adc, .sbc].contains i.mnemonic ||
      (shiftMnemonics.contains i.mnemonic && i.mode == .acc)
  | .x => [Mnemonic.ldx, .tax, .tsx, .inx, .dex].contains i.mnemonic
  | .y => [Mnemonic.ldy, .tay, .iny, .dey].contains i.mnemonic

/-- The column "read by" of R11. -/
def Reg.readBy (i : Instr) : Reg → Bool
  | .a => [Mnemonic.sta, .tax, .tay, .pha, .and, .eor, .ora, .bit, .adc, .sbc, .cmp].contains i.mnemonic ||
      (shiftMnemonics.contains i.mnemonic && i.mode == .acc)
  | .x => [Mnemonic.stx, .txa, .txs, .cpx, .inx, .dex].contains i.mnemonic || [Mode.zpx, .absx, .indx].contains i.mode
  | .y => [Mnemonic.sty, .tya, .cpy, .iny, .dey].contains i.mnemonic || [Mode.zpy, .absy, .indy].contains i.mode

/-- The flag-effect matrix (R16 to R23, R27; restated in 95_test_vectors.md section 2.1): the bits of `P` each mnemonic writes, in
binary or decimal mode. -/
def flagsWritten (m : Mnemonic) (decimal : Bool) : List Flag :=
  match m with
  | .adc => if decimal then [.c] else [.n, .v, .z, .c]
  | .sbc => if decimal then [.c] else [.n, .v, .z, .c]
  | .and => [.n, .z]
  | .eor => [.n, .z]
  | .ora => [.n, .z]
  | .asl => [.n, .z, .c]
  | .lsr => [.n, .z, .c]
  | .rol => [.n, .z, .c]
  | .ror => [.n, .z, .c]
  | .bit => [.n, .v, .z]
  | .cmp => [.n, .z, .c]
  | .cpx => [.n, .z, .c]
  | .cpy => [.n, .z, .c]
  | .inc => [.n, .z]
  | .dec => [.n, .z]
  | .inx => [.n, .z]
  | .iny => [.n, .z]
  | .dex => [.n, .z]
  | .dey => [.n, .z]
  | .lda => [.n, .z]
  | .ldx => [.n, .z]
  | .ldy => [.n, .z]
  | .tax => [.n, .z]
  | .tay => [.n, .z]
  | .tsx => [.n, .z]
  | .txa => [.n, .z]
  | .tya => [.n, .z]
  | .txs => []
  | .pla => [.n, .z]
  | .plp => [.n, .v, .bit5, .b, .d, .i, .z, .c]
  | .pha => []
  | .php => []
  | .sta => []
  | .stx => []
  | .sty => []
  | .clc => [.c]
  | .sec => [.c]
  | .cld => [.d]
  | .sed => [.d]
  | .cli => [.i]
  | .sei => [.i]
  | .clv => [.v]
  | .bcc => []
  | .bcs => []
  | .beq => []
  | .bmi => []
  | .bne => []
  | .bpl => []
  | .bvc => []
  | .bvs => []
  | .jmp => []
  | .jsr => []
  | .rts => []
  | .brk => []
  | .rti => []
  | .nop => []

/-- The "Read by" lists of R16 to R21, R23 and R27. -/
def Flag.readBy : Flag → List Mnemonic
  | .c => [.adc, .sbc, .rol, .ror, .bcc, .bcs, .php]
  | .z => [.beq, .bne, .php]
  | .i => [.php]
  | .d => [.adc, .sbc, .php]
  | .b => [.php]
  | .bit5 => [.php]
  | .v => [.bvc, .bvs, .php]
  | .n => [.bmi, .bpl, .php]

/-- The instructions that write `S` (R12). -/
def spWriters : List Mnemonic := [.pha, .php, .pla, .plp, .jsr, .rts, .txs]

/-- The instructions that write `PC` besides the fetch (R14). -/
def pcWriters : List Mnemonic := [.bcc, .bcs, .beq, .bmi, .bne, .bpl, .bvc, .bvs, .jmp, .jsr, .rts]

/-- The 105 illegal opcode bytes, as R67 lists them. -/
def illegalOpcodes : List Byte :=
  [0x02, 0x03, 0x04, 0x07, 0x0B, 0x0C, 0x0F, 0x12, 0x13, 0x14, 0x17, 0x1A, 0x1B, 0x1C, 0x1F] ++
  [0x22, 0x23, 0x27, 0x2B, 0x2F, 0x32, 0x33, 0x34, 0x37, 0x3A, 0x3B, 0x3C, 0x3F, 0x42, 0x43] ++
  [0x44, 0x47, 0x4B, 0x4F, 0x52, 0x53, 0x54, 0x57, 0x5A, 0x5B, 0x5C, 0x5F, 0x62, 0x63, 0x64] ++
  [0x67, 0x6B, 0x6F, 0x72, 0x73, 0x74, 0x77, 0x7A, 0x7B, 0x7C, 0x7F, 0x80, 0x82, 0x83, 0x87] ++
  [0x89, 0x8B, 0x8F, 0x92, 0x93, 0x97, 0x9B, 0x9C, 0x9E, 0x9F, 0xA3, 0xA7, 0xAB, 0xAF, 0xB2] ++
  [0xB3, 0xB7, 0xBB, 0xBF, 0xC2, 0xC3, 0xC7, 0xCB, 0xCF, 0xD2, 0xD3, 0xD4, 0xD7, 0xDA, 0xDB] ++
  [0xDC, 0xDF, 0xE2, 0xE3, 0xE7, 0xEB, 0xEF, 0xF2, 0xF3, 0xF4, 0xF7, 0xFA, 0xFB, 0xFC, 0xFF]

/-- The length in bytes of each mode, the column of R63. -/
def modeLength : Mode → Nat
  | .imp => 1
  | .acc => 1
  | .imm => 2
  | .zp => 2
  | .zpx => 2
  | .zpy => 2
  | .abs => 3
  | .absx => 3
  | .absy => 3
  | .ind => 3
  | .indx => 2
  | .indy => 2
  | .rel => 2

/-! ### Runs -/

/-- A run from `s` never ends: whatever the fuel, the loop would go on (R301). -/
def Diverges (s : State) : Prop := ∀ n, ∃ u, run n s = .running u

/-- A safe run: it never faults, whether or not it ends (R301). -/
def SafeRun (s : State) : Prop := ∀ n f u, run n s ≠ .faulted f u

end Sys2Proof.Machine
end

