-- ==== Sys2Proof/Certificates/Slice0/Obligations.lean ====
section
/-! DEFINITION. The statements about the machine for the provers, from the spec's numbered rules. In every statement about `exec`,
`PC` before it is the address of the next instruction (all bytes of the instruction are fetched, R101); what a step adds around
`exec` is `Obligations.StepRunsTheDecodedInstruction`. -/

open Sys2Proof Sys2Proof.Machine

/-- After Reset, whatever the state before, A, X, Y, PC and P are 0, S is 0xFF, every memory cell reads 0x00, JSRCNT is 0,
TERMINATED is 0, and CODE_START and CODE_END are 0; GetState and GetS show it. It rests on the spec's own decision D16
(92_eei_decisions.md; log entry 11). Cites: R30, 70_reset_and_hazards.md section 1, 92_eei_decisions.md D16. -/
def Obligations.ResetLeavesTheStatedState : Prop :=
  ∀ s : State,
    (hostReset s).a = 0x00 ∧ (hostReset s).x = 0x00 ∧ (hostReset s).y = 0x00 ∧ (hostReset s).pc = 0x0000 ∧
    (hostReset s).p = 0x00 ∧ (∀ f : Flag, (hostReset s).flag f = false) ∧ (hostReset s).sp = 0xFF ∧
    (∀ addr : Addr, (hostReset s).read addr = 0x00) ∧ (hostReset s).jsrcnt = 0 ∧ (hostReset s).terminated = false ∧
    (hostReset s).codeStart = 0x0000 ∧ (hostReset s).codeEnd = 0x0000 ∧ hostReset s = State.reset ∧
    getState (hostReset s) = { a := 0, x := 0, y := 0, pc := 0, flags := 0 } ∧ getS (hostReset s) = 0xFF

/-- The state after reset has a canonical memory, no JSR pending if the run has ended, and a window whose start is not above its
end. It rests on the spec's own decisions D16, D17 (92_eei_decisions.md; log entry 11). Cites: R30, R40, 10_state.md section
4, 92_eei_decisions.md D16, D17. -/
def Obligations.ResetMeetsTheInvariant : Prop :=
  State.reset.Inv ∧ Host.Core.reset Sys2Proof.core = State.reset

/-- From every state with a canonical memory, JSRCNT = 0 whenever TERMINATED = 1, and CODE_START <= CODE_END, a step that answers
a next state answers one with the same three properties. It rests on the spec's own decisions D9, D10, D11, D12, D16, D17
(92_eei_decisions.md; log entries 2, 11). Cites: R40, R45, 10_state.md section 4, 40_dispatch_and_addressing.md section 1,
47_control_flow.md, 92_eei_decisions.md D9, D10, D11, D12, D16, D17. -/
def Obligations.StepKeepsTheInvariant : Prop :=
  ∀ s t : State, s.Inv → step s = .next t → t.Inv

/-- Reset establishes the invariant from any state; LoadData, LoadExecutable and SetState keep it, for every argument, whether or
not the load succeeds; the state at a fault has it too. It rests on the spec's own decisions D6, D16, D17, D25
(92_eei_decisions.md; log entries 5, 11). Cites: R304, 60_exceptions.md section 1, 70_reset_and_hazards.md section 1,
70_reset_and_hazards.md section 2, 92_eei_decisions.md D6, D16, D17, D25. -/
def Obligations.HostOperationsKeepTheInvariant : Prop :=
  ∀ s : State,
    (hostReset s).Inv ∧
    (s.Inv →
      (∀ bytes address clearFirst, (loadData bytes address s clearFirst).2.Inv) ∧
      (∀ bytes address, (loadExecutable bytes address s).2.Inv) ∧
      (∀ patch, (setState patch s).Inv) ∧
      (faultState s).Inv)

/-- For every instruction, with every value of its operand, and any bytes after it, the decoder reads that instruction from its
encoding and leaves exactly those bytes. It rests on the spec's own decision D2 (92_eei_decisions.md; log entry 10). It rests
on what the spec marks as derived in 30_encoding.md section 1. Cites: R60, R62, R65, R84, 30_encoding.md section 1,
30_encoding.md section 3, 92_eei_decisions.md D2. -/
def Obligations.DecodeOfEncodeIsTheInstruction : Prop :=
  ∀ (i : Instr) (rest : List Byte), decode (encode i ++ rest) = .ok (i, rest)

/-- If the decoder reads an instruction from some bytes and leaves a rest, the bytes are that instruction's encoding followed by
the rest: every instruction has one encoding and operand bytes are never illegal; and bytes whose first byte has a row and
that are long enough are accepted. It rests on the spec's own decision D2 (92_eei_decisions.md; log entry 10). It rests on
what the spec marks as derived in 30_encoding.md section 1, 30_encoding.md section 4. Cites: R60, R63, 30_encoding.md section
1, 30_encoding.md section 3, 30_encoding.md section 4, 92_eei_decisions.md D2. -/
def Obligations.EncodeOfDecodeIsTheBytes : Prop :=
  (∀ (bytes rest : List Byte) (i : Instr), decode bytes = .ok (i, rest) → bytes = encode i ++ rest) ∧
  (∀ (op d1 d2 : Byte) (rest : List Byte), op ∉ illegalOpcodes →
    ∃ i rest', decode (op :: d1 :: d2 :: rest) = .ok (i, rest') ∧ i.opcode = op)

/-- One or more words of each family, with the opcode byte from the map and little-endian operand bytes, decode to the instruction
they stand for; three of the illegal bytes do not decode. It rests on the spec's own decision D2 (92_eei_decisions.md; log
entry 10). Cites: R42, R62, 30_encoding.md section 3, 30_encoding.md section 4, 92_eei_decisions.md D2. -/
def Obligations.SpotEncodingsDecode : Prop :=
  decode [0xA9, 0x02] = .ok (.ldaImm 0x02, []) ∧ decode [0xB6, 0xFF] = .ok (.ldxZpy 0xFF, []) ∧
  decode [0x91, 0x20] = .ok (.staIndy 0x20, []) ∧ decode [0x9A] = .ok (.txs, []) ∧ decode [0x08] = .ok (.php, []) ∧
  decode [0x7E, 0xFF, 0x02] = .ok (.rorAbsx 0x02FF, []) ∧ decode [0x0A] = .ok (.aslAcc, []) ∧
  decode [0x2C, 0x00, 0x03] = .ok (.bitAbs 0x0300, []) ∧ decode [0x41, 0x10] = .ok (.eorIndx 0x10, []) ∧
  decode [0x79, 0x34, 0x12] = .ok (.adcAbsy 0x1234, []) ∧ decode [0xE9, 0x03] = .ok (.sbcImm 0x03, []) ∧
  decode [0xEC, 0x00, 0x03] = .ok (.cpxAbs 0x0300, []) ∧ decode [0xD6, 0x10] = .ok (.decZpx 0x10, []) ∧
  decode [0x6C, 0xFF, 0x12] = .ok (.jmpInd 0x12FF, []) ∧ decode [0x20, 0x56, 0x04] = .ok (.jsr 0x0456, []) ∧
  decode [0xD0, 0xF5] = .ok (.bne 0xF5, []) ∧ decode [0x78] = .ok (.sei, []) ∧ decode [0xEA, 0x00] = .ok (.nop, [0x00]) ∧
  decode [0x02] = .error (.illegalOpcode 0x02) ∧ decode [0x80, 0x00] = .error (.illegalOpcode 0x80) ∧
  decode [0xFF] = .error (.illegalOpcode 0xFF)

/-- The encoding of every instruction is as long as the table of R63 says for its mode, between 1 and 3 bytes, begins with the
opcode byte, and two instructions with the same first byte have the same mnemonic, mode and length, which is the inference
R64. It rests on the spec's own decision D2 (92_eei_decisions.md; log entry 10). It rests on what the spec marks as derived in
30_encoding.md section 1. Cites: R60, R63, R65, 30_encoding.md section 1, 30_encoding.md section 3, 92_eei_decisions.md D2. -/
def Obligations.ModeFixesTheLength : Prop :=
  (∀ i : Instr, (encode i).length = modeLength i.mode ∧ 1 ≤ (encode i).length ∧ (encode i).length ≤ 3) ∧
  (∀ i : Instr, 1 + i.mode.operandBytes = modeLength i.mode) ∧
  (∀ i j : Instr, (encode i).head? = (encode j).head? →
    i.mnemonic = j.mnemonic ∧ i.mode = j.mode ∧ (encode i).length = (encode j).length)

/-- For every mnemonic and mode, the pair is legal exactly when the metadata table gives it for some opcode byte; no two opcode
bytes give the same pair. It rests on the spec's own decision D2 (92_eei_decisions.md; log entry 10). Cites: R71,
30_encoding.md section 3, 92_eei_decisions.md D2. -/
def Obligations.LegalPairsAreTheOpcodeRows : Prop :=
  (∀ (m : Mnemonic) (k : Mode), legalPair m k = true ↔ ∃ op, opcodeInfo op = some (m, k)) ∧
  (∀ (op op' : Byte) (p : Mnemonic × Mode), opcodeInfo op = some p → opcodeInfo op' = some p → op = op')

/-- The decoder assigns nothing to an opcode byte exactly when R67 lists it; there are 105 and they are different. A step that
fetches such a byte ends with IllegalOpcode(opcode, address of the byte), and nothing but PC has changed. It rests on the
spec's own decisions D2, D5, D7 (92_eei_decisions.md; log entries 5, 10, 11). Cites: 30_encoding.md section 4,
60_exceptions.md section 1, 92_eei_decisions.md D2, D5, D7. -/
def Obligations.IllegalOpcodesFault : Prop :=
  illegalOpcodes.length = 105 ∧ illegalOpcodes.Nodup ∧
  (∀ op : Byte, decodeOpcode op = none ↔ op ∈ illegalOpcodes) ∧
  (∀ s : State, s.terminated = false → s.pc.toNat < s.codeEnd.toNat → s.read s.pc ∈ illegalOpcodes →
    step s = .fault (.illegalOpcode (s.read s.pc) s.pc) ∧ faultState s = s.setPc (faultState s).pc)

/-- In a run that has not ended, when the bytes at PC decode to an instruction (every decoded instruction is well formed) and all
its bytes lie below CODE_END, step is exec of it in the same state with PC advanced by its length. It rests on the spec's own
decision D5 (92_eei_decisions.md; log entry 11). It rests on what the spec marks as derived in 40_dispatch_and_addressing.md
section 4. Cites: R80, R85, 40_dispatch_and_addressing.md section 3, 40_dispatch_and_addressing.md section 4,
92_eei_decisions.md D5. -/
def Obligations.StepRunsTheDecodedInstruction : Prop :=
  ∀ (s : State) (i : Instr) (rest : List Byte),
    s.terminated = false → decode (s.bytesAt s.pc 3) = .ok (i, rest) → s.pc.toNat + i.length ≤ s.codeEnd.toNat →
    i.wellFormed = true ∧ i.length = (encode i).length ∧ step s = exec i (s.setPc (s.pc + BitVec.ofNat 16 i.length))

/-- FetchByte with PC >= CODE_END raises EndOfDataFetch(PC) and changes nothing; below it, it returns M[PC] and adds 1 to PC,
which cannot wrap, and changes nothing else. It rests on the spec's own decision D5 (92_eei_decisions.md; log entry 11).
Cites: 40_dispatch_and_addressing.md section 3, 92_eei_decisions.md D5. -/
def Obligations.FetchByteReadsAndAdvances : Prop :=
  ∀ s : State,
    (s.codeEnd.toNat ≤ s.pc.toNat → fetchByte s = .error (.endOfDataFetch s.pc, s)) ∧
    (s.pc.toNat < s.codeEnd.toNat →
      ∃ t, fetchByte s = .ok (s.read s.pc, t) ∧ t.pc.toNat = s.pc.toNat + 1 ∧ t = { s with pc := t.pc })

/-- With TERMINATED = 1 there is no step. Else PC at or past CODE_END gives EndOfDataFetch(PC) whatever the memory holds; below it
an illegal opcode byte gives IllegalOpcode; else, when the decoded instruction does not fit below CODE_END,
EndOfDataFetch(CODE_END), the address of its first missing byte. At the fault PC is past the bytes fetched and nothing else
has changed. It rests on the spec's own decisions D5, D6, D12 (92_eei_decisions.md; log entries 2, 5, 11). It rests on what
the spec marks as derived in 60_exceptions.md section 1. Cites: 60_exceptions.md section 1, 92_eei_decisions.md D5, D6, D12. -/
def Obligations.FaultsComeInPriorityOrder : Prop :=
  ∀ s : State, (s.terminated = true → step s = .refused .runEnded) ∧ (s.terminated = false →
    (s.codeEnd.toNat ≤ s.pc.toNat → step s = .fault (.endOfDataFetch s.pc) ∧ faultState s = s) ∧
    (s.pc.toNat < s.codeEnd.toNat → decodeOpcode (s.read s.pc) = none →
      step s = .fault (.illegalOpcode (s.read s.pc) s.pc) ∧ faultState s = s.setPc (s.pc + 1)) ∧
    (∀ (i : Instr) (rest : List Byte), s.pc.toNat < s.codeEnd.toNat → decode (s.bytesAt s.pc 3) = .ok (i, rest) →
      s.codeEnd.toNat < s.pc.toNat + (encode i).length →
      step s = .fault (.endOfDataFetch s.codeEnd) ∧ faultState s = s.setPc s.codeEnd))

/-- When TERMINATED is 1 a step is refused by name, neither a next state nor a fault, and Run returns Ended with the state
unchanged, whatever its fuel. It rests on the spec's own decisions D12, D28 (92_eei_decisions.md; log entries 2, 6). Cites:
40_dispatch_and_addressing.md section 1, 92_eei_decisions.md D12, D28. -/
def Obligations.TerminatedMachineTakesNoStep : Prop :=
  ∀ s : State, s.terminated = true → step s = .refused .runEnded ∧ ∀ n, run n s = .ended s

/-- Every instruction answers a next state in every state. A step that faults reports EndOfDataFetch of an address at or past
CODE_END, or IllegalOpcode of an unassigned byte at the address PC; a step is refused only when TERMINATED is 1. It rests on
the spec's own decisions D5, D7, D12 (92_eei_decisions.md; log entries 2, 5, 11). It rests on what the spec marks as derived
in 40_dispatch_and_addressing.md section 3, 60_exceptions.md section 1. Cites: 40_dispatch_and_addressing.md section 3,
60_exceptions.md section 1, 92_eei_decisions.md D5, D7, D12. -/
def Obligations.OnlyTheFetchFaults : Prop :=
  (∀ (i : Instr) (s : State), ∃ t, exec i s = .next t) ∧
  (∀ (s : State) (f : Fault), step s = .fault f →
    (∃ addr, f = .endOfDataFetch addr ∧ s.codeEnd.toNat ≤ addr.toNat) ∨
    (f = .illegalOpcode (s.read s.pc) s.pc ∧ s.read s.pc ∈ illegalOpcodes ∧ s.pc.toNat < s.codeEnd.toNat)) ∧
  (∀ (s : State) (r : Refusal), step s = .refused r ↔ s.terminated = true ∧ r = .runEnded)

/-- After MemWrite(addr, v) the cell addr reads v, every other cell reads as before, every register, flag and control field is as
before; and a FetchByte at that address returns v. Cites: R45. -/
def Obligations.MemWriteSetsOneCell : Prop :=
  ∀ (s : State) (addr : Addr) (v : Byte),
    (s.write addr v).read addr = v ∧ (∀ other, other ≠ addr → (s.write addr v).read other = s.read other) ∧
    Frame [] [] [addr] s (s.write addr v) ∧ SameControl s (s.write addr v) ∧ (s.write addr v).p = s.p ∧
    (s.pc = addr → s.pc.toNat < s.codeEnd.toNat → ∃ t, fetchByte (s.write addr v) = .ok (v, t))

/-- Changing CODE_START before a step changes nothing in what the step does: the same fault or refusal, or the same next state but
for CODE_START itself, which no instruction writes. It rests on the spec's own decisions D5, D16 (92_eei_decisions.md; log
entry 11). Cites: 10_state.md section 4, 40_dispatch_and_addressing.md section 3, 70_reset_and_hazards.md section 5,
92_eei_decisions.md D5, D16. -/
def Obligations.WindowStartIsNeverRead : Prop :=
  ∀ (s : State) (v : Addr),
    step { s with codeStart := v } = mapNext (fun t => { t with codeStart := v }) (step s)

/-- Push(v) writes v at 0x0100 + S and leaves S one lower modulo 256; every other cell, register, flag and control field is as
before; a push with S = 0x00 writes 0x0100 and leaves 0xFF. Cites: R52. -/
def Obligations.PushWritesThenDecrements : Prop :=
  ∀ (s : State) (v : Byte),
    (∃ addr : Addr, addr.toNat = 0x0100 + s.sp.toNat ∧ (s.push v).read addr = v ∧ Frame [] [] [addr] s (s.push v)) ∧
    (s.push v).sp.toNat = (s.sp.toNat + 255) % 256 ∧ (s.push v).pc = s.pc ∧ (s.push v).p = s.p ∧
    (s.push v).jsrcnt = s.jsrcnt ∧ (s.push v).terminated = s.terminated

/-- Pop leaves S one higher modulo 256, returns the byte at 0x0100 + the new S and changes nothing else, no cell either; one Push
then one Pop returns the pushed value and restores S. Cites: R53. -/
def Obligations.PopIncrementsThenReads : Prop :=
  ∀ s : State,
    (∀ addr : Addr, addr.toNat = 0x0100 + (s.sp.toNat + 1) % 256 → s.pop.1 = s.read addr) ∧
    s.pop.2.sp.toNat = (s.sp.toNat + 1) % 256 ∧ s.pop.2 = { s with sp := s.pop.2.sp } ∧
    (∀ v : Byte, (s.push v).pop.1 = v ∧ (s.push v).pop.2.sp = s.sp)

/-- For every value v, SetZN(v) sets Z exactly when v is 0 and N exactly when bit 7 of v is set, and leaves the other six bits of
P and everything else unchanged. Cites: R22. -/
def Obligations.SetZNWritesTwoBits : Prop :=
  ∀ (s : State) (v : Byte),
    ShowsZN v (s.setZN v) ∧ WritesFlags [.z, .n] s (s.setZN v) ∧
    (∀ k, k ≠ 1 → k ≠ 7 → (s.setZN v).p.getLsbD k = s.p.getLsbD k)

/-- The status byte is the sum of its flags at the masks 0x80 N, 0x40 V, 0x20 bit 5, 0x10 B, 0x08 D, 0x04 I, 0x02 Z, 0x01 C; a
flag write sets that flag and no other; a whole byte written is read back. It rests on the spec's own decision D26
(92_eei_decisions.md; log entry 11). Cites: R15, 10_state.md section 3, 92_eei_decisions.md D26. -/
def Obligations.StatusByteIsItsEightFlags : Prop :=
  ∀ (s : State) (f : Flag) (b : Bool) (v : Byte),
    s.p.toNat = 128 * (s.flag .n).toNat + 64 * (s.flag .v).toNat + 32 * (s.flag .bit5).toNat + 16 * (s.flag .b).toNat +
      8 * (s.flag .d).toNat + 4 * (s.flag .i).toNat + 2 * (s.flag .z).toNat + (s.flag .c).toNat ∧
    (s.setFlag f b).flag f = b ∧ WritesFlags [f] s (s.setFlag f b) ∧ (s.setP v).p = v ∧
    (getState (setState { flags := some v } s)).flags = v

/-- An instruction in one of these modes has one operand byte zp; its address is zp, (zp + X) mod 256 or (zp + Y) mod 256; Zero
Page,Y is used by LDX and STX only. Cites: R88, R89, R90. -/
def Obligations.ZeroPageModesStayInPageZero : Prop :=
  ∀ (s : State) (i : Instr) (zp : Byte),
    (i.operand = .mem (.zp zp) → encode i = [i.opcode, zp] ∧ (effectiveAddress s (.zp zp)).toNat = zp.toNat) ∧
    (i.operand = .mem (.zpx zp) →
      encode i = [i.opcode, zp] ∧ (effectiveAddress s (.zpx zp)).toNat = (zp.toNat + s.x.toNat) % 256) ∧
    (i.operand = .mem (.zpy zp) →
      encode i = [i.opcode, zp] ∧ (effectiveAddress s (.zpy zp)).toNat = (zp.toNat + s.y.toNat) % 256 ∧
      (i.mnemonic = .ldx ∨ i.mnemonic = .stx))

/-- An instruction in one of these modes has two operand bytes, the low byte first; its address is the 16-bit value, or that value
plus X or Y modulo 65536, with a carry into the high byte. Cites: R91, R92, R93. -/
def Obligations.AbsoluteModesAreSixteenBit : Prop :=
  ∀ (s : State) (i : Instr) (a16 : Addr),
    (i.operand = .mem (.abs a16) →
      encode i = [i.opcode, lowByte a16, highByte a16] ∧ effectiveAddress s (.abs a16) = a16 ∧
      a16.toNat = (lowByte a16).toNat + 256 * (highByte a16).toNat) ∧
    (i.operand = .mem (.absx a16) →
      encode i = [i.opcode, lowByte a16, highByte a16] ∧
      (effectiveAddress s (.absx a16)).toNat = (a16.toNat + s.x.toNat) % 65536) ∧
    (i.operand = .mem (.absy a16) →
      encode i = [i.opcode, lowByte a16, highByte a16] ∧
      (effectiveAddress s (.absy a16)).toNat = (a16.toNat + s.y.toNat) % 65536)

/-- Indirect mode is JMP's alone, has a little-endian 16-bit pointer, and gives the 16-bit value whose low byte is at the pointer
and high byte at (pointer + 1) mod 65536: no page-wrap bug, and a pointer of 0xFFFF takes the high byte from 0x0000. It rests
on the spec's own decision D19 (92_eei_decisions.md; log entry 12). Cites: 40_dispatch_and_addressing.md section 4,
92_eei_decisions.md D19. -/
def Obligations.IndirectReadsBothBytesAcrossPages : Prop :=
  ∀ (s : State) (i : Instr) (ptr next : Addr), i.operand = .ind ptr → next.toNat = (ptr.toNat + 1) % 65536 →
    i.mnemonic = .jmp ∧ encode i = [i.opcode, lowByte ptr, highByte ptr] ∧
    (indirectTarget s ptr).toNat = 256 * (s.read next).toNat + (s.read ptr).toNat

/-- With p = (zp + X) mod 256 the address is the 16-bit value whose low byte is at p and high byte at (p + 1) mod 256; X is not
added to the final address. Cites: R95. -/
def Obligations.IndexedIndirectPointerInPageZero : Prop :=
  ∀ (s : State) (i : Instr) (zp : Byte) (p q : Addr), i.operand = .mem (.indx zp) →
    p.toNat = (zp.toNat + s.x.toNat) % 256 → q.toNat = (p.toNat + 1) % 256 →
    encode i = [i.opcode, zp] ∧ (effectiveAddress s (.indx zp)).toNat = 256 * (s.read q).toNat + (s.read p).toNat

/-- The pointer's low byte is at zp, its high byte at (zp + 1) mod 256, and the address is the pointer plus Y modulo 65536. Cites:
R96. -/
def Obligations.IndirectIndexedAddsYToThePointer : Prop :=
  ∀ (s : State) (i : Instr) (zp : Byte) (p q : Addr), i.operand = .mem (.indy zp) →
    p.toNat = zp.toNat → q.toNat = (zp.toNat + 1) % 256 →
    encode i = [i.opcode, zp] ∧
    (effectiveAddress s (.indy zp)).toNat = (256 * (s.read q).toNat + (s.read p).toNat + s.y.toNat) % 65536

/-- Relative mode is used by the eight branches only, has one operand byte, and its target is the address of the next instruction
plus the byte read as two's complement, modulo 65536. Cites: R97. -/
def Obligations.RelativeTargetIsSignedAndWraps : Prop :=
  ∀ (s : State) (i : Instr) (b : Byte), i.operand = .rel b →
    i.mnemonic ∈ [Mnemonic.bcc, .bcs, .beq, .bmi, .bne, .bpl, .bvc, .bvs] ∧ encode i = [i.opcode, b] ∧
    ((branchTarget s b).toNat : Int) = (s.pc.toNat + (if b.toNat < 128 then (b.toNat : Int) else b.toNat - 256)) % 65536

/-- An implied instruction is one byte and one of the 25 listed; an accumulator instruction is one byte, one of the four shifts,
and shifts A into A; an immediate instruction is the opcode and its datum, and is one of the eleven listed, so there is no
immediate store. Cites: R86, R87, R98. -/
def Obligations.OperandlessAndImmediateModes : Prop :=
  ∀ (i : Instr) (value : Byte),
    (i.operand = .imp → encode i = [i.opcode] ∧
      i.mnemonic ∈ [Mnemonic.brk, .clc, .cld, .cli, .clv, .dex, .dey, .inx, .iny, .nop, .pha, .php, .pla, .plp, .rti, .rts, .sec,
        .sed, .sei, .tax, .tay, .tsx, .txa, .txs, .tya]) ∧
    (i.operand = .acc → encode i = [i.opcode] ∧ i.mnemonic ∈ [Mnemonic.asl, .lsr, .rol, .ror] ∧
      ∀ s : State, ∃ op t, exec i s = .next t ∧ ShiftAccPost op s t) ∧
    (i.operand = .imm value → encode i = [i.opcode, value] ∧
      i.mnemonic ∈ [Mnemonic.adc, .and, .cmp, .cpx, .cpy, .eor, .lda, .ldx, .ldy, .ora, .sbc])

/-- Every form of LDA, LDX and LDY has the opcode byte of the map and completes: its register holds the operand, Z and N are those
of the operand, and every other register, flag, cell and control field is as before. Cites: R110, R111, R112, R113. -/
def Obligations.LoadsWriteTheirRegister : Prop :=
  ∀ (s : State) (d : Byte) (a16 : Addr),
    Runs (.ldaImm d) [0xA9, d] s (LoadPost .a d s) ∧
    Runs (.ldaZp d) [0xA5, d] s (LoadPost .a (memOperand s (.zp d)) s) ∧
    Runs (.ldaZpx d) [0xB5, d] s (LoadPost .a (memOperand s (.zpx d)) s) ∧
    Runs (.ldaAbs a16) [0xAD, lowByte a16, highByte a16] s (LoadPost .a (memOperand s (.abs a16)) s) ∧
    Runs (.ldaAbsx a16) [0xBD, lowByte a16, highByte a16] s (LoadPost .a (memOperand s (.absx a16)) s) ∧
    Runs (.ldaAbsy a16) [0xB9, lowByte a16, highByte a16] s (LoadPost .a (memOperand s (.absy a16)) s) ∧
    Runs (.ldaIndx d) [0xA1, d] s (LoadPost .a (memOperand s (.indx d)) s) ∧
    Runs (.ldaIndy d) [0xB1, d] s (LoadPost .a (memOperand s (.indy d)) s) ∧
    Runs (.ldxImm d) [0xA2, d] s (LoadPost .x d s) ∧
    Runs (.ldxZp d) [0xA6, d] s (LoadPost .x (memOperand s (.zp d)) s) ∧
    Runs (.ldxZpy d) [0xB6, d] s (LoadPost .x (memOperand s (.zpy d)) s) ∧
    Runs (.ldxAbs a16) [0xAE, lowByte a16, highByte a16] s (LoadPost .x (memOperand s (.abs a16)) s) ∧
    Runs (.ldxAbsy a16) [0xBE, lowByte a16, highByte a16] s (LoadPost .x (memOperand s (.absy a16)) s) ∧
    Runs (.ldyImm d) [0xA0, d] s (LoadPost .y d s) ∧
    Runs (.ldyZp d) [0xA4, d] s (LoadPost .y (memOperand s (.zp d)) s) ∧
    Runs (.ldyZpx d) [0xB4, d] s (LoadPost .y (memOperand s (.zpx d)) s) ∧
    Runs (.ldyAbs a16) [0xAC, lowByte a16, highByte a16] s (LoadPost .y (memOperand s (.abs a16)) s) ∧
    Runs (.ldyAbsx a16) [0xBC, lowByte a16, highByte a16] s (LoadPost .y (memOperand s (.absx a16)) s)

/-- Every form of STA, STX and STY has the opcode byte of the map and completes: the cell at its effective address (computed
before the write) holds the register, and every other cell, every register, flag and control field is as before. Cites: R114,
R115, R116, R117. -/
def Obligations.StoresWriteOneCell : Prop :=
  ∀ (s : State) (d : Byte) (a16 : Addr),
    Runs (.staZp d) [0x85, d] s (WritesCell (effectiveAddress s (.zp d)) s.a [] s) ∧
    Runs (.staZpx d) [0x95, d] s (WritesCell (effectiveAddress s (.zpx d)) s.a [] s) ∧
    Runs (.staAbs a16) [0x8D, lowByte a16, highByte a16] s (WritesCell (effectiveAddress s (.abs a16)) s.a [] s) ∧
    Runs (.staAbsx a16) [0x9D, lowByte a16, highByte a16] s (WritesCell (effectiveAddress s (.absx a16)) s.a [] s) ∧
    Runs (.staAbsy a16) [0x99, lowByte a16, highByte a16] s (WritesCell (effectiveAddress s (.absy a16)) s.a [] s) ∧
    Runs (.staIndx d) [0x81, d] s (WritesCell (effectiveAddress s (.indx d)) s.a [] s) ∧
    Runs (.staIndy d) [0x91, d] s (WritesCell (effectiveAddress s (.indy d)) s.a [] s) ∧
    Runs (.stxZp d) [0x86, d] s (WritesCell (effectiveAddress s (.zp d)) s.x [] s) ∧
    Runs (.stxZpy d) [0x96, d] s (WritesCell (effectiveAddress s (.zpy d)) s.x [] s) ∧
    Runs (.stxAbs a16) [0x8E, lowByte a16, highByte a16] s (WritesCell (effectiveAddress s (.abs a16)) s.x [] s) ∧
    Runs (.styZp d) [0x84, d] s (WritesCell (effectiveAddress s (.zp d)) s.y [] s) ∧
    Runs (.styZpx d) [0x94, d] s (WritesCell (effectiveAddress s (.zpx d)) s.y [] s) ∧
    Runs (.styAbs a16) [0x8C, lowByte a16, highByte a16] s (WritesCell (effectiveAddress s (.abs a16)) s.y [] s)

/-- Each transfer has the opcode byte of the map and completes: the destination holds the source; five set Z and N from it, TXS
changes no flag; everything else is as before. Cites: R118, R119, R120, R121, R122, R123, R124. -/
def Obligations.TransfersCopyARegister : Prop :=
  ∀ s : State,
    Runs .tax [0xAA] s (LoadPost .x s.a s) ∧
    Runs .tay [0xA8] s (LoadPost .y s.a s) ∧
    Runs .tsx [0xBA] s (LoadPost .x s.sp s) ∧
    Runs .txa [0x8A] s (LoadPost .a s.x s) ∧
    Runs .txs [0x9A] s (fun t => t.sp = s.x ∧ Frame [] [] [] s t ∧ t.pc = s.pc ∧ t.jsrcnt = s.jsrcnt ∧ t.terminated = s.terminated) ∧
    Runs .tya [0x98] s (LoadPost .a s.y s)

/-- PHA pushes A and PHP the raw status byte, changing no flag; PLA pops into A with Z and N from it; PLP pops all eight bits of
P, forcing none; S moves by one modulo 256; everything else is as before. JSRCNT is untouched. Cites: R130, R131, R132, R133,
R134. -/
def Obligations.StackInstructionsPushAndPop : Prop :=
  ∀ s : State,
    Runs .pha [0x48] s (PushPost s.a s) ∧
    Runs .php [0x08] s (PushPost s.p s) ∧
    Runs .pla [0x68] s (fun t => t.a = s.read (stackAddr (s.sp + 1)) ∧ t.sp.toNat = (s.sp.toNat + 1) % 256 ∧ ShowsZN t.a t ∧
      Frame [.a] [.z, .n] [] s t ∧ t.pc = s.pc ∧ t.jsrcnt = s.jsrcnt ∧ t.terminated = s.terminated) ∧
    Runs .plp [0x28] s (fun t => t.p = s.read (stackAddr (s.sp + 1)) ∧ t.sp.toNat = (s.sp.toNat + 1) % 256 ∧
      Frame [] [.c, .z, .i, .d, .b, .bit5, .v, .n] [] s t ∧ t.pc = s.pc ∧ t.jsrcnt = s.jsrcnt ∧ t.terminated = s.terminated)

/-- From every state, PHP then PLP leaves P and S as they were, all eight bits; PHA then PLA leaves A and S as they were. Cites:
R130, R131, R132, R133, R134. -/
def Obligations.PhpThenPlpRestoresPAndS : Prop :=
  ∀ s t u : State,
    (exec .php s = .next t → exec .plp t = .next u → u.p = s.p ∧ u.sp = s.sp) ∧
    (exec .pha s = .next t → exec .pla t = .next u → u.a = s.a ∧ u.sp = s.sp)

/-- Every form of the four shifts completes: the result goes back where the operand came from, C is the bit shifted out, ROL and
ROR take the old Carry in, Z and N are those of the result; in a memory mode A is not touched; everything else is as before.
Cites: R140, R141, R142, R143, R144. -/
def Obligations.ShiftsMoveOneBit : Prop :=
  ∀ (s : State) (d : Byte) (a16 : Addr),
    Runs .aslAcc [0x0A] s (ShiftAccPost .asl s) ∧
    Runs (.aslZp d) [0x06, d] s (ShiftMemPost .asl (effectiveAddress s (.zp d)) s) ∧
    Runs (.aslZpx d) [0x16, d] s (ShiftMemPost .asl (effectiveAddress s (.zpx d)) s) ∧
    Runs (.aslAbs a16) [0x0E, lowByte a16, highByte a16] s (ShiftMemPost .asl (effectiveAddress s (.abs a16)) s) ∧
    Runs (.aslAbsx a16) [0x1E, lowByte a16, highByte a16] s (ShiftMemPost .asl (effectiveAddress s (.absx a16)) s) ∧
    Runs .lsrAcc [0x4A] s (ShiftAccPost .lsr s) ∧
    Runs (.lsrZp d) [0x46, d] s (ShiftMemPost .lsr (effectiveAddress s (.zp d)) s) ∧
    Runs (.lsrZpx d) [0x56, d] s (ShiftMemPost .lsr (effectiveAddress s (.zpx d)) s) ∧
    Runs (.lsrAbs a16) [0x4E, lowByte a16, highByte a16] s (ShiftMemPost .lsr (effectiveAddress s (.abs a16)) s) ∧
    Runs (.lsrAbsx a16) [0x5E, lowByte a16, highByte a16] s (ShiftMemPost .lsr (effectiveAddress s (.absx a16)) s) ∧
    Runs .rolAcc [0x2A] s (ShiftAccPost .rol s) ∧
    Runs (.rolZp d) [0x26, d] s (ShiftMemPost .rol (effectiveAddress s (.zp d)) s) ∧
    Runs (.rolZpx d) [0x36, d] s (ShiftMemPost .rol (effectiveAddress s (.zpx d)) s) ∧
    Runs (.rolAbs a16) [0x2E, lowByte a16, highByte a16] s (ShiftMemPost .rol (effectiveAddress s (.abs a16)) s) ∧
    Runs (.rolAbsx a16) [0x3E, lowByte a16, highByte a16] s (ShiftMemPost .rol (effectiveAddress s (.absx a16)) s) ∧
    Runs .rorAcc [0x6A] s (ShiftAccPost .ror s) ∧
    Runs (.rorZp d) [0x66, d] s (ShiftMemPost .ror (effectiveAddress s (.zp d)) s) ∧
    Runs (.rorZpx d) [0x76, d] s (ShiftMemPost .ror (effectiveAddress s (.zpx d)) s) ∧
    Runs (.rorAbs a16) [0x6E, lowByte a16, highByte a16] s (ShiftMemPost .ror (effectiveAddress s (.abs a16)) s) ∧
    Runs (.rorAbsx a16) [0x7E, lowByte a16, highByte a16] s (ShiftMemPost .ror (effectiveAddress s (.absx a16)) s)

/-- Executing ROL A nine times, or ROR A nine times, restores A and Carry; ROL then ROR, and ROR then ROL, of A do too. The same
holds of the memory cell in every memory mode that ROL and ROR have: nine ROLs, nine RORs, ROL then ROR, and ROR then ROL with
one operand all complete and restore the cell and Carry. Cites: R140, R143, R144. -/
def Obligations.NineRotatesRestore : Prop :=
  (∀ s : State,
    (∃ t, repeatInstr 9 .rolAcc s = .next t ∧ t.a = s.a ∧ t.flag .c = s.flag .c) ∧
    (∃ t, repeatInstr 9 .rorAcc s = .next t ∧ t.a = s.a ∧ t.flag .c = s.flag .c) ∧
    (∃ t u, exec .rolAcc s = .next t ∧ exec .rorAcc t = .next u ∧ u.a = s.a ∧ u.flag .c = s.flag .c) ∧
    (∃ t u, exec .rorAcc s = .next t ∧ exec .rolAcc t = .next u ∧ u.a = s.a ∧ u.flag .c = s.flag .c)) ∧
  (∀ (s : State) (rol ror : Instr) (f : MemForm),
    rol.mnemonic = .rol → rol.operand = .mem f → ror.mnemonic = .ror → ror.operand = .mem f →
    (∃ t, repeatInstr 9 rol s = .next t ∧ t.read (effectiveAddress s f) = s.read (effectiveAddress s f) ∧
      t.flag .c = s.flag .c) ∧
    (∃ t, repeatInstr 9 ror s = .next t ∧ t.read (effectiveAddress s f) = s.read (effectiveAddress s f) ∧
      t.flag .c = s.flag .c) ∧
    (∃ t u, exec rol s = .next t ∧ exec ror t = .next u ∧
      u.read (effectiveAddress s f) = s.read (effectiveAddress s f) ∧ u.flag .c = s.flag .c) ∧
    (∃ t u, exec ror s = .next t ∧ exec rol t = .next u ∧
      u.read (effectiveAddress s f) = s.read (effectiveAddress s f) ∧ u.flag .c = s.flag .c))

/-- Every form of AND, EOR and ORA completes: A holds the bitwise and, exclusive or, or inclusive or of A and the operand, Z and N
are those of the result; Carry, Overflow and everything else are as before. Cites: R150, R151, R152, R153. -/
def Obligations.LogicCombinesIntoA : Prop :=
  ∀ (s : State) (d : Byte) (a16 : Addr),
    Runs (.andImm d) [0x29, d] s (LoadPost .a (s.a &&& d) s) ∧
    Runs (.andZp d) [0x25, d] s (LoadPost .a (s.a &&& (memOperand s (.zp d))) s) ∧
    Runs (.andZpx d) [0x35, d] s (LoadPost .a (s.a &&& (memOperand s (.zpx d))) s) ∧
    Runs (.andAbs a16) [0x2D, lowByte a16, highByte a16] s (LoadPost .a (s.a &&& (memOperand s (.abs a16))) s) ∧
    Runs (.andAbsx a16) [0x3D, lowByte a16, highByte a16] s (LoadPost .a (s.a &&& (memOperand s (.absx a16))) s) ∧
    Runs (.andAbsy a16) [0x39, lowByte a16, highByte a16] s (LoadPost .a (s.a &&& (memOperand s (.absy a16))) s) ∧
    Runs (.andIndx d) [0x21, d] s (LoadPost .a (s.a &&& (memOperand s (.indx d))) s) ∧
    Runs (.andIndy d) [0x31, d] s (LoadPost .a (s.a &&& (memOperand s (.indy d))) s) ∧
    Runs (.eorImm d) [0x49, d] s (LoadPost .a (s.a ^^^ d) s) ∧
    Runs (.eorZp d) [0x45, d] s (LoadPost .a (s.a ^^^ (memOperand s (.zp d))) s) ∧
    Runs (.eorZpx d) [0x55, d] s (LoadPost .a (s.a ^^^ (memOperand s (.zpx d))) s) ∧
    Runs (.eorAbs a16) [0x4D, lowByte a16, highByte a16] s (LoadPost .a (s.a ^^^ (memOperand s (.abs a16))) s) ∧
    Runs (.eorAbsx a16) [0x5D, lowByte a16, highByte a16] s (LoadPost .a (s.a ^^^ (memOperand s (.absx a16))) s) ∧
    Runs (.eorAbsy a16) [0x59, lowByte a16, highByte a16] s (LoadPost .a (s.a ^^^ (memOperand s (.absy a16))) s) ∧
    Runs (.eorIndx d) [0x41, d] s (LoadPost .a (s.a ^^^ (memOperand s (.indx d))) s) ∧
    Runs (.eorIndy d) [0x51, d] s (LoadPost .a (s.a ^^^ (memOperand s (.indy d))) s) ∧
    Runs (.oraImm d) [0x09, d] s (LoadPost .a (s.a ||| d) s) ∧
    Runs (.oraZp d) [0x05, d] s (LoadPost .a (s.a ||| (memOperand s (.zp d))) s) ∧
    Runs (.oraZpx d) [0x15, d] s (LoadPost .a (s.a ||| (memOperand s (.zpx d))) s) ∧
    Runs (.oraAbs a16) [0x0D, lowByte a16, highByte a16] s (LoadPost .a (s.a ||| (memOperand s (.abs a16))) s) ∧
    Runs (.oraAbsx a16) [0x1D, lowByte a16, highByte a16] s (LoadPost .a (s.a ||| (memOperand s (.absx a16))) s) ∧
    Runs (.oraAbsy a16) [0x19, lowByte a16, highByte a16] s (LoadPost .a (s.a ||| (memOperand s (.absy a16))) s) ∧
    Runs (.oraIndx d) [0x01, d] s (LoadPost .a (s.a ||| (memOperand s (.indx d))) s) ∧
    Runs (.oraIndy d) [0x11, d] s (LoadPost .a (s.a ||| (memOperand s (.indy d))) s)

/-- Both forms of BIT complete: N is bit 7 and V bit 6 of the memory operand, Z says whether A & operand is 0; A, memory and
everything else are as before. Cites: R154. -/
def Obligations.BitTestsMemory : Prop :=
  ∀ (s : State) (d : Byte) (a16 : Addr),
    Runs (.bitZp d) [0x24, d] s (BitPost (memOperand s (.zp d)) s) ∧
    Runs (.bitAbs a16) [0x2C, lowByte a16, highByte a16] s (BitPost (memOperand s (.abs a16)) s)

/-- Every form of ADC completes. Binary: A is (A + m + C) mod 256, C is the carry out, V says whether the signed sum is out of
range, Z and N are those of the result. Decimal on valid BCD: A is the two low digits of the decimal sum, C the hundreds
digit, all else stale. Decimal with a nibble above 9: A and C are BCD_INVALID(ADC, A, m, C), whatever that is, all else stale.
It rests on the spec's own decisions D13, D14 (92_eei_decisions.md; log entries 1, 11). Cites: R161, R162, 45_arithmetic.md
section 3, 92_eei_decisions.md D13, D14. -/
def Obligations.AdcAddsWithCarry : Prop :=
  ∀ (s : State) (d : Byte) (a16 : Addr),
    Runs (.adcImm d) [0x69, d] s (AdcPost d s) ∧
    Runs (.adcZp d) [0x65, d] s (AdcPost (memOperand s (.zp d)) s) ∧
    Runs (.adcZpx d) [0x75, d] s (AdcPost (memOperand s (.zpx d)) s) ∧
    Runs (.adcAbs a16) [0x6D, lowByte a16, highByte a16] s (AdcPost (memOperand s (.abs a16)) s) ∧
    Runs (.adcAbsx a16) [0x7D, lowByte a16, highByte a16] s (AdcPost (memOperand s (.absx a16)) s) ∧
    Runs (.adcAbsy a16) [0x79, lowByte a16, highByte a16] s (AdcPost (memOperand s (.absy a16)) s) ∧
    Runs (.adcIndx d) [0x61, d] s (AdcPost (memOperand s (.indx d)) s) ∧
    Runs (.adcIndy d) [0x71, d] s (AdcPost (memOperand s (.indy d)) s)

/-- Every form of SBC completes. Binary: A is (A - m - (1 - C)) mod 256, C is 1 exactly when there is no borrow, V says whether
the signed difference is out of range, Z and N are those of the result. Decimal on valid BCD: the decimal difference modulo
100, C = 1 when there is no borrow, all else stale. Decimal with a nibble above 9: BCD_INVALID(SBC, A, m, C), whatever that
is. It rests on the spec's own decisions D13, D14 (92_eei_decisions.md; log entries 1, 11). It rests on what the spec marks as
derived in 45_arithmetic.md section 2. Cites: 45_arithmetic.md section 2, 45_arithmetic.md section 3, 92_eei_decisions.md D13,
D14. -/
def Obligations.SbcSubtractsWithBorrow : Prop :=
  ∀ (s : State) (d : Byte) (a16 : Addr),
    Runs (.sbcImm d) [0xE9, d] s (SbcPost d s) ∧
    Runs (.sbcZp d) [0xE5, d] s (SbcPost (memOperand s (.zp d)) s) ∧
    Runs (.sbcZpx d) [0xF5, d] s (SbcPost (memOperand s (.zpx d)) s) ∧
    Runs (.sbcAbs a16) [0xED, lowByte a16, highByte a16] s (SbcPost (memOperand s (.abs a16)) s) ∧
    Runs (.sbcAbsx a16) [0xFD, lowByte a16, highByte a16] s (SbcPost (memOperand s (.absx a16)) s) ∧
    Runs (.sbcAbsy a16) [0xF9, lowByte a16, highByte a16] s (SbcPost (memOperand s (.absy a16)) s) ∧
    Runs (.sbcIndx d) [0xE1, d] s (SbcPost (memOperand s (.indx d)) s) ∧
    Runs (.sbcIndy d) [0xF1, d] s (SbcPost (memOperand s (.indy d)) s)

/-- For every A, every operand m and either Carry-in, AddBinary writes A = (A + m + C) mod 256, C = 1 exactly when the unsigned
sum exceeds 255, V = 1 exactly when the signed sum is outside -128 to 127, which is the sign rule (~(A xor m) and (A xor
result)) bit 7 of R161, Z and N from the result; nothing else changes. Cites: R161. -/
def Obligations.AddBinaryComputesSumCarryAndOverflow : Prop :=
  ∀ (s : State) (m : Byte),
    BinaryPost (s.a.toNat + m.toNat + (s.flag .c).toNat) (s.a.toInt + m.toInt + (s.flag .c).toNat)
      (255 < s.a.toNat + m.toNat + (s.flag .c).toNat) s (addBinaryToA m s) ∧
    (addBinaryToA m s).flag .v = ((~~~(s.a ^^^ m)) &&& (s.a ^^^ (addBinaryToA m s).a)).getLsbD 7

/-- With D = 1 every form of ADC and SBC writes A and C and nothing else, so Z, N and V are stale, whatever the operands. With D =
0 the result is the binary sum A + m + C or difference A - m - (1 - C) modulo 256, on operands that are no valid BCD too. D
itself is never changed. It rests on what the spec marks as derived in 45_arithmetic.md section 2. Cites: R160, R161, R164,
45_arithmetic.md section 2. -/
def Obligations.DecimalModeIsChosenByDAndWritesAAndCarry : Prop :=
  ∀ (i : Instr) (s : State) (m : Byte), (i.mnemonic = .adc ∨ i.mnemonic = .sbc) → OperandIs i s m →
    ∃ t, exec i s = .next t ∧ t.flag .d = s.flag .d ∧ t.mem = s.mem ∧
      (s.flag .d = true → WritesReg .a t.a [.c] s t) ∧
      (s.flag .d = false → i.mnemonic = .adc → t.a = s.a + m + (if s.flag .c then 1 else 0)) ∧
      (s.flag .d = false → i.mnemonic = .sbc → t.a = s.a - m - (if s.flag .c then 0 else 1))

/-- SBC(ADC(A, v, c), v, 1 - c) = A modulo 256, the third argument being the carry-in; so executing ADC #v, setting Carry to the
complement of the carry-in, and executing SBC #v restores A. It rests on what the spec marks as derived in 45_arithmetic.md
section 2, 45_arithmetic.md section 4. Cites: R161, 45_arithmetic.md section 2, 45_arithmetic.md section 4. -/
def Obligations.SbcUndoesAdc : Prop :=
  ∀ (s t u : State) (v : Byte), s.flag .d = false → exec (.adcImm v) s = .next t →
    exec (.sbcImm v) (t.setFlag .c (!s.flag .c)) = .next u → u.a = s.a

/-- Every form of the three compares completes: Z says the two are equal, C that the register is at least the operand unsigned, N
is bit 7 of the wrapped difference; the register, memory, V, I, D, B, bit 5 and everything else are as before. Cites: R180,
R181, R182, R183. -/
def Obligations.ComparesSetThreeFlags : Prop :=
  ∀ (s : State) (d : Byte) (a16 : Addr),
    Runs (.cmpImm d) [0xC9, d] s (ComparePost s.a d s) ∧
    Runs (.cmpZp d) [0xC5, d] s (ComparePost s.a (memOperand s (.zp d)) s) ∧
    Runs (.cmpZpx d) [0xD5, d] s (ComparePost s.a (memOperand s (.zpx d)) s) ∧
    Runs (.cmpAbs a16) [0xCD, lowByte a16, highByte a16] s (ComparePost s.a (memOperand s (.abs a16)) s) ∧
    Runs (.cmpAbsx a16) [0xDD, lowByte a16, highByte a16] s (ComparePost s.a (memOperand s (.absx a16)) s) ∧
    Runs (.cmpAbsy a16) [0xD9, lowByte a16, highByte a16] s (ComparePost s.a (memOperand s (.absy a16)) s) ∧
    Runs (.cmpIndx d) [0xC1, d] s (ComparePost s.a (memOperand s (.indx d)) s) ∧
    Runs (.cmpIndy d) [0xD1, d] s (ComparePost s.a (memOperand s (.indy d)) s) ∧
    Runs (.cpxImm d) [0xE0, d] s (ComparePost s.x d s) ∧
    Runs (.cpxZp d) [0xE4, d] s (ComparePost s.x (memOperand s (.zp d)) s) ∧
    Runs (.cpxAbs a16) [0xEC, lowByte a16, highByte a16] s (ComparePost s.x (memOperand s (.abs a16)) s) ∧
    Runs (.cpyImm d) [0xC0, d] s (ComparePost s.y d s) ∧
    Runs (.cpyZp d) [0xC4, d] s (ComparePost s.y (memOperand s (.zp d)) s) ∧
    Runs (.cpyAbs a16) [0xCC, lowByte a16, highByte a16] s (ComparePost s.y (memOperand s (.abs a16)) s)

/-- Every form completes: the cell or register holds its old value plus or minus 1 modulo 256, Z and N are those of the result; C,
V, A and everything else are as before. Cites: R184, R185, R186, R187, R188, R189, R190. -/
def Obligations.IncrementsAndDecrementsWrap : Prop :=
  ∀ (s : State) (d : Byte) (a16 : Addr),
    Runs (.incZp d) [0xE6, d] s (CellDeltaPost 1 (effectiveAddress s (.zp d)) s) ∧
    Runs (.incZpx d) [0xF6, d] s (CellDeltaPost 1 (effectiveAddress s (.zpx d)) s) ∧
    Runs (.incAbs a16) [0xEE, lowByte a16, highByte a16] s (CellDeltaPost 1 (effectiveAddress s (.abs a16)) s) ∧
    Runs (.incAbsx a16) [0xFE, lowByte a16, highByte a16] s (CellDeltaPost 1 (effectiveAddress s (.absx a16)) s) ∧
    Runs (.decZp d) [0xC6, d] s (CellDeltaPost (-1) (effectiveAddress s (.zp d)) s) ∧
    Runs (.decZpx d) [0xD6, d] s (CellDeltaPost (-1) (effectiveAddress s (.zpx d)) s) ∧
    Runs (.decAbs a16) [0xCE, lowByte a16, highByte a16] s (CellDeltaPost (-1) (effectiveAddress s (.abs a16)) s) ∧
    Runs (.decAbsx a16) [0xDE, lowByte a16, highByte a16] s (CellDeltaPost (-1) (effectiveAddress s (.absx a16)) s) ∧
    Runs .inx [0xE8] s (RegDeltaPost 1 .x s) ∧
    Runs .iny [0xC8] s (RegDeltaPost 1 .y s) ∧
    Runs .dex [0xCA] s (RegDeltaPost (-1) .x s) ∧
    Runs .dey [0x88] s (RegDeltaPost (-1) .y s)

/-- JMP absolute completes with PC the operand, JMP indirect with PC the 16-bit value of the two bytes at the operand
(indirectTarget, which Obligations.IndirectReadsBothBytesAcrossPages gives in numbers); no flag, register, cell, S or JSRCNT
changes. Cites: R201. -/
def Obligations.JumpSetsPC : Prop :=
  ∀ (s : State) (a16 : Addr),
    Runs (.jmpAbs a16) [0x4C, lowByte a16, highByte a16] s (JumpPost a16.toNat s) ∧
    Runs (.jmpInd a16) [0x6C, lowByte a16, highByte a16] s (JumpPost (indirectTarget s a16).toNat s)

/-- JSR completes: the high byte of PC (the address of the next instruction) is at 0x0100 + S, the low byte at 0x0100 + ((S - 1)
mod 256), S is lower by 2 modulo 256, PC is the operand, JSRCNT is one more; everything else is as before. It rests on the
spec's own decisions D8, D10 (92_eei_decisions.md; log entry 11). Cites: R202, 90_conflicts.md C1, 92_eei_decisions.md D8,
D10. -/
def Obligations.JsrPushesTheNextAddress : Prop :=
  ∀ (s : State) (a16 : Addr), Runs (.jsr a16) [0x20, lowByte a16, highByte a16] s (JsrPost a16 s)

/-- RTS completes: with JSRCNT > 0, PC is the two popped bytes, low first, with no 1 added, S is higher by 2 modulo 256 and JSRCNT
one less; with JSRCNT = 0, TERMINATED is 1 and PC, S, the stack and all registers are as the opcode fetch left them. No flag
changes. It rests on the spec's own decisions D8, D9, D11 (92_eei_decisions.md; log entry 11). Cites: 47_control_flow.md,
90_conflicts.md C1, 92_eei_decisions.md D8, D9, D11. -/
def Obligations.RtsReturnsOrEndsTheRun : Prop :=
  ∀ s : State, Runs .rts [0x60] s (RtsPost s)

/-- If an RTS runs with S as just after a JSR, the two stacked bytes unmodified and a JSR pending, PC becomes the address after
the JSR and S its value before it; and if JSRCNT is as just after the JSR, it becomes its value before it. It rests on the
spec's own decisions D8, D9, D10, D11 (92_eei_decisions.md; log entry 11). It rests on what the spec marks as derived in
47_control_flow.md. Cites: R202, 47_control_flow.md, 90_conflicts.md C1, 92_eei_decisions.md D8, D9, D10, D11. -/
def Obligations.RtsUndoesJsr : Prop :=
  ∀ (s s1 u : State) (a16 : Addr), exec (.jsr a16) s = .next s1 → u.sp = s1.sp → 0 < u.jsrcnt →
    u.read (stackAddr s.sp) = s1.read (stackAddr s.sp) → u.read (stackAddr (s.sp - 1)) = s1.read (stackAddr (s.sp - 1)) →
    ∃ t, exec .rts u = .next t ∧ t.pc = s.pc ∧ t.sp = s.sp ∧ t.terminated = u.terminated ∧
      (u.jsrcnt = s1.jsrcnt → t.jsrcnt = s.jsrcnt)

/-- BRK, RTI and NOP complete in every state with the state unchanged: the only effect is that the fetch moved PC by 1. BRK pushes
nothing and sets neither B nor I; RTI pops nothing. It rests on the spec's own decision D15 (92_eei_decisions.md; log entry
11). Cites: R248, 47_control_flow.md, 92_eei_decisions.md D15. -/
def Obligations.BrkRtiAndNopOnlyFetch : Prop :=
  ∀ s : State,
    Runs .brk [0x00] s (fun t => t = s) ∧ Runs .rti [0x40] s (fun t => t = s) ∧ Runs .nop [0xEA] s (fun t => t = s) ∧
    (s.terminated = false → s.pc.toNat < s.codeEnd.toNat → s.read s.pc ∈ [(0x00 : Byte), 0x40, 0xEA] →
      step s = .next { s with pc := s.pc + 1 })

/-- Each branch has the opcode byte of the map and one displacement byte, and completes: taken, PC is the address after the branch
plus the signed displacement modulo 65536; not taken, PC is the address after the branch; no flag, register, cell, S or JSRCNT
changes. Cites: R221, R222, R223, R224, R225, R226, R227, R228. -/
def Obligations.BranchesTestOneFlag : Prop :=
  ∀ (s : State) (d : Byte),
    Runs (.bcc d) [0x90, d] s (BranchPost (!s.flag .c) d s) ∧
    Runs (.bcs d) [0xB0, d] s (BranchPost (s.flag .c) d s) ∧
    Runs (.beq d) [0xF0, d] s (BranchPost (s.flag .z) d s) ∧
    Runs (.bmi d) [0x30, d] s (BranchPost (s.flag .n) d s) ∧
    Runs (.bne d) [0xD0, d] s (BranchPost (!s.flag .z) d s) ∧
    Runs (.bpl d) [0x10, d] s (BranchPost (!s.flag .n) d s) ∧
    Runs (.bvc d) [0x50, d] s (BranchPost (!s.flag .v) d s) ∧
    Runs (.bvs d) [0x70, d] s (BranchPost (s.flag .v) d s)

/-- Each flag instruction has the opcode byte of the map and completes: its flag has the constant value, and the other seven bits
of P, every register, every cell, S and the control fields are as before. Cites: R241, R242, R243, R244, R245, R246, R247. -/
def Obligations.FlagInstructionsWriteOneBit : Prop :=
  ∀ s : State,
    Runs .clc [0x18] s (FlagPost .c false s) ∧
    Runs .cld [0xD8] s (FlagPost .d false s) ∧
    Runs .cli [0x58] s (FlagPost .i false s) ∧
    Runs .clv [0xB8] s (FlagPost .v false s) ∧
    Runs .sec [0x38] s (FlagPost .c true s) ∧
    Runs .sed [0xF8] s (FlagPost .d true s) ∧
    Runs .sei [0x78] s (FlagPost .i true s)

/-- An instruction that is not in a register's "written by" cell leaves it as it was. For one not in its "read by" cell, changing
the register beforehand changes nothing in what the instruction does, but for the register itself where the instruction does
not write it. It rests on what the spec marks as derived in 10_state.md section 1. Cites: 10_state.md section 1. -/
def Obligations.GeneralRegistersByTheirTable : Prop :=
  (∀ (q : Reg) (i : Instr) (s t : State), q.writtenBy i = false → exec i s = .next t → t.reg q = s.reg q) ∧
  (∀ (q : Reg) (i : Instr) (s : State) (v : Byte), q.readBy i = false →
    exec i (s.setReg q v) = mapNext (fun t => if q.writtenBy i then t else t.setReg q v) (exec i s))

/-- An instruction leaves every bit of P that its row of the flag-effect matrix does not list as it was, in binary and in decimal
mode: only PLP writes B and bit 5, decimal ADC and SBC write C alone. For an instruction not in a bit's "Read by" list,
changing the bit beforehand changes nothing in what the instruction does, but for the bit itself where it is not written: I, B
and bit 5 affect PHP alone. It rests on the spec's own decision D26 (92_eei_decisions.md; log entry 11). Cites: R16, R17, R18,
R19, R20, R21, R23, 10_state.md section 3, 92_eei_decisions.md D26. -/
def Obligations.FlagsByTheirMatrix : Prop :=
  (∀ (i : Instr) (s t : State) (f : Flag), exec i s = .next t → f ∉ flagsWritten i.mnemonic (s.flag .d) → t.flag f = s.flag f) ∧
  (∀ (f : Flag) (i : Instr) (s : State) (b : Bool), i.mnemonic ∉ f.readBy →
    exec i (s.setFlag f b) =
      mapNext (fun t => if f ∈ flagsWritten i.mnemonic (s.flag .d) then t else t.setFlag f b) (exec i s))

/-- Only PHA, PHP, PLA, PLP, JSR, RTS and TXS change S; only branches, JMP, JSR and RTS change PC beyond the fetch; JSR adds 1 to
JSRCNT, RTS subtracts 1 when it is above 0, nothing else changes it; only an RTS with JSRCNT = 0 sets TERMINATED and no
instruction clears it; no instruction writes the window. It rests on the spec's own decisions D9, D10, D16, D17
(92_eei_decisions.md; log entry 11). It rests on what the spec marks as derived in 10_state.md section 2. Cites: R12,
10_state.md section 2, 10_state.md section 4, 92_eei_decisions.md D9, D10, D16, D17. -/
def Obligations.ControlStateWriters : Prop :=
  ∀ (i : Instr) (s t : State), exec i s = .next t →
    (i.mnemonic ∉ spWriters → t.sp = s.sp) ∧ (i.mnemonic ∉ pcWriters → t.pc = s.pc) ∧
    t.jsrcnt = (if i.mnemonic = .jsr then s.jsrcnt + 1 else if i.mnemonic = .rts then s.jsrcnt - 1 else s.jsrcnt) ∧
    t.terminated = (s.terminated || (i.mnemonic == .rts && s.jsrcnt == 0)) ∧
    t.codeStart = s.codeStart ∧ t.codeEnd = s.codeEnd

/-- For every instruction the memory after it is the memory before it with the writes of its transaction list made in order, at
most two of them; every read in the list shows the byte the cell held; an instruction whose list has no write leaves every
cell. It rests on the spec's own decisions D1, D20 (92_eei_decisions.md; log entry 9). Cites: R114, R140, R184, 00_scope.md
section 4, 20_memory.md section 4, 92_eei_decisions.md D1, D20. -/
def Obligations.MemoryChangesOnlyByItsTransactions : Prop :=
  ∀ (i : Instr) (s t : State), exec i s = .next t →
    t.mem = s.mem.replay (dataTransactions i s) ∧
    (∀ addr v, .read addr v ∈ dataTransactions i s → v = s.read addr) ∧
    ((∀ addr v, .write addr v ∉ dataTransactions i s) → ∀ addr, t.read addr = s.read addr) ∧
    ((dataTransactions i s).filter (fun x => match x with | .write _ _ => true | .read _ _ => false)).length ≤ 2

/-- When address + n <= 0xFFFF the load succeeds: memory is the image at its place and 0x00 elsewhere, the window is the image's,
PC is its first byte, JSRCNT and TERMINATED are 0, and A, X, Y, P and S are as before. Otherwise the answer is false and
nothing changes. It rests on the spec's own decisions D17, D25 (92_eei_decisions.md; log entry 11). Cites:
70_reset_and_hazards.md section 2, 92_eei_decisions.md D17, D25. -/
def Obligations.LoadExecutablePlacesAProgram : Prop :=
  ∀ (s : State) (bytes : List Byte) (address : Addr),
    (address.toNat + bytes.length ≤ 0xFFFF →
      ∃ t, loadExecutable bytes address s = (true, t) ∧
        (∀ addr : Addr, t.read addr =
          if address.toNat ≤ addr.toNat then bytes.getD (addr.toNat - address.toNat) 0x00 else 0x00) ∧
        t.codeStart = address ∧ t.codeEnd.toNat = address.toNat + bytes.length ∧ t.pc = address ∧ t.jsrcnt = 0 ∧
        t.terminated = false ∧ t.a = s.a ∧ t.x = s.x ∧ t.y = s.y ∧ t.p = s.p ∧ t.sp = s.sp) ∧
    (0xFFFF < address.toNat + bytes.length → loadExecutable bytes address s = (false, s))

/-- LoadData succeeds exactly when address + n <= 0xFFFF. It then places the bytes, with every other cell 0x00 if clear_first and
as before if not, and touches nothing else; otherwise it answers false and nothing changes, memory not cleared either. It
rests on the spec's own decisions D17, D22 (92_eei_decisions.md; log entry 11). Cites: 70_reset_and_hazards.md section 2,
92_eei_decisions.md D17, D22. -/
def Obligations.LoadDataTouchesMemoryOnly : Prop :=
  ∀ (s : State) (bytes : List Byte) (address : Addr) (clearFirst : Bool),
    (address.toNat + bytes.length ≤ 0xFFFF →
      ∃ t, loadData bytes address s clearFirst = (true, t) ∧ t = { s with mem := t.mem } ∧
        (∀ addr : Addr, t.read addr =
          if address.toNat ≤ addr.toNat ∧ addr.toNat < address.toNat + bytes.length then
            bytes.getD (addr.toNat - address.toNat) 0x00
          else if clearFirst then 0x00 else s.read addr)) ∧
    (0xFFFF < address.toNat + bytes.length → loadData bytes address s clearFirst = (false, s))

/-- GetState shows A, X, Y, PC and P, GetS shows S. SetState writes exactly the fields present and cannot write S, JSRCNT,
TERMINATED, the window or memory. DumpMemory gives the cells of its range in order when address + length <= 0x10000 and is
refused otherwise. It rests on the spec's own decisions D23, D29 (92_eei_decisions.md; log entries 3, 11). Cites: R303, R304,
70_reset_and_hazards.md section 4, 92_eei_decisions.md D23, D29. -/
def Obligations.HostReadsAndPatches : Prop :=
  ∀ (s : State) (patch : Patch) (address : Addr) (length : Nat),
    getState s = { a := s.a, x := s.x, y := s.y, pc := s.pc, flags := s.p } ∧ getS s = s.sp ∧
    (setState patch s).a = (match patch.a with | some v => v | none => s.a) ∧
    (setState patch s).x = (match patch.x with | some v => v | none => s.x) ∧
    (setState patch s).y = (match patch.y with | some v => v | none => s.y) ∧
    (setState patch s).pc = (match patch.pc with | some v => v | none => s.pc) ∧
    (setState patch s).p = (match patch.flags with | some v => v | none => s.p) ∧
    getS (setState patch s) = getS s ∧ (setState patch s).mem = s.mem ∧ (setState patch s).jsrcnt = s.jsrcnt ∧
    (setState patch s).terminated = s.terminated ∧ (setState patch s).codeStart = s.codeStart ∧
    (setState patch s).codeEnd = s.codeEnd ∧
    (address.toNat + length ≤ 0x10000 →
      ∃ bytes, dumpMemory address length s = .ok bytes ∧ bytes.length = length ∧
        ∀ (k : Nat) (addr : Addr), k < length → addr.toNat = address.toNat + k → bytes[k]? = some (s.read addr)) ∧
    (0x10000 < address.toNat + length → dumpMemory address length s = .error (.dumpOutOfRange address length))

/-- From every state exactly one holds: the run ends in one final state, it faults with one fault, or it never ends; an ending
reached with some fuel is the ending with more, and two endings are the same. The final state is terminated or has PC at or
past CODE_END; a run that ends by termination from a state not terminated reaches, after some number of steps, a state not
terminated whose next step is the last: it fetches an RTS while JSRCNT is 0 and leaves PC one past it, TERMINATED set and
nothing else changed; a run is never refused. That a run is given fuel is the model's form (log entry 6). It rests on the
spec's own decisions D11, D12, D18, D28 (92_eei_decisions.md; log entries 2, 6, 11). It rests on what the spec marks as
derived in 70_reset_and_hazards.md section 3. Cites: R315, 70_reset_and_hazards.md section 3, 92_eei_decisions.md D11, D12,
D18, D28. -/
def Obligations.RunEndsInExactlyOneWay : Prop :=
  ∀ s : State,
    ((∃ n t, run n s = .ended t) ∨ (∃ n f t, run n s = .faulted f t) ∨ Diverges s) ∧
    (∀ m n, m ≤ n → (∀ u, run m s ≠ .running u) → run n s = run m s) ∧
    (∀ m n, (∀ u, run m s ≠ .running u) → (∀ u, run n s ≠ .running u) → run m s = run n s) ∧
    (∀ n r u, run n s ≠ .refused r u) ∧
    (∀ n t, run n s = .ended t →
      (t.terminated = true ∧ endReason t = .endedByRts) ∨
      (t.terminated = false ∧ t.codeEnd.toNat ≤ t.pc.toNat ∧ endReason t = .endedAtEndOfData)) ∧
    (∀ n t, s.terminated = false → run n s = .ended t → t.terminated = true →
      ∃ (k : Nat) (u : State), k < n ∧ Host.Core.run Sys2Proof.core k s = .next u ∧ u.terminated = false ∧ step u = .next t ∧
        u.read u.pc = 0x60 ∧ u.jsrcnt = 0 ∧ u.pc.toNat < u.codeEnd.toNat ∧ t = { u with pc := u.pc + 1, terminated := true })

/-- In a run that has not ended, n zero bytes from PC on, all below CODE_END, are executed in n steps that change nothing but PC,
which ends n higher: no stop, no trap, no fault. It rests on the spec's own decision D15 (92_eei_decisions.md; log entry 11).
It rests on what the spec marks as derived in 70_reset_and_hazards.md section 5. Cites: 47_control_flow.md,
70_reset_and_hazards.md section 5, 92_eei_decisions.md D15. -/
def Obligations.ZeroFilledMemoryRunsAsNoOps : Prop :=
  ∀ (n : Nat) (s : State), s.terminated = false → s.pc.toNat + n ≤ s.codeEnd.toNat →
    (∀ addr : Addr, s.pc.toNat ≤ addr.toNat → addr.toNat < s.pc.toNat + n → s.read addr = 0x00) →
    Host.Core.run Sys2Proof.core n s = .next { s with pc := s.pc + BitVec.ofNat 16 n }
end

