-- ==== Sys2Proof/Laws/Alu.lean ====
section
/-! SUPPORT. What the 8-bit operations of the arithmetic logic unit compute, in plain numbers. -/

namespace Sys2Proof.Machine

/-- The result byte of `AddBinary` is the exact sum modulo 256 (R161). -/
theorem addBinary_result_toNat (a m : Byte) (c : Bool) :
    ((addBinary a m c).result.toNat : Int) = (a.toNat + m.toNat + c.toNat : Int) % 256 := by
  simp only [addBinary, BitVec.toNat_ofNat]
  omega

/-- The result byte of `AddBinary` as a sum of bytes (R161). -/
theorem addBinary_result (a m : Byte) (c : Bool) : (addBinary a m c).result = a + m + (if c then 1 else 0) := by
  refine BitVec.eq_of_toNat_eq ?_
  cases c <;> simp [addBinary]

/-- With the operand complemented the result byte is the difference less the borrow (R163). -/
theorem addBinary_complement_result (a m : Byte) (c : Bool) :
    (addBinary a (m ^^^ 0xFF) c).result = a - m - (if c then 0 else 1) := by
  have flip : ∀ b : Byte, b ^^^ 0xFF = -b - 1 := by decide
  rw [addBinary_result, flip]
  cases c <;> simp [BitVec.sub_eq_add_neg] <;> bv_omega

/-- The sign-mismatch rule in numbers: `x`, `y` and `z` are unsigned bytes, `z` the wrapped sum of the other two and `k`. -/
theorem sign_mismatch_iff_out_of_range (x y z : Nat) (k : Int) (hx : x < 256) (hy : y < 256) (hz : z < 256)
    (hk : 0 ≤ k ∧ k ≤ 1) (h : (z : Int) = (x + y + k) % 256) :
    ((!(Bool.xor (decide (128 ≤ x)) (decide (128 ≤ y)))) && (Bool.xor (decide (128 ≤ x)) (decide (128 ≤ z)))) =
      decide ((if 2 * x < 256 then (x : Int) else x - 256) + (if 2 * y < 256 then (y : Int) else y - 256) + k < -128 ∨
        127 < (if 2 * x < 256 then (x : Int) else x - 256) + (if 2 * y < 256 then (y : Int) else y - 256) + k) := by
  rcases Nat.lt_or_ge x 128 with h1 | h1 <;> rcases Nat.lt_or_ge y 128 with h2 | h2 <;>
    rcases Nat.lt_or_ge z 128 with h3 | h3
  all_goals
    first | rw [if_pos (by omega : 2 * x < 256)] | rw [if_neg (by omega : ¬ 2 * x < 256)]
    first | rw [if_pos (by omega : 2 * y < 256)] | rw [if_neg (by omega : ¬ 2 * y < 256)]
    simp only [Nat.not_le.2, h1, h2, h3, decide_true, decide_false, Bool.xor_true, Bool.xor_false, Bool.not_true,
      Bool.not_false, Bool.and_true, Bool.and_false]
    symm
    first | (rw [decide_eq_true_eq]; omega) | (rw [decide_eq_false_iff_not]; omega)

/-- The Overflow of `AddBinary`: the exact signed sum is outside -128 to 127 (R161). -/
theorem addBinary_overflow (a m : Byte) (c : Bool) :
    (addBinary a m c).overflow = decide (a.toInt + m.toInt + c.toNat < -128 ∨ 127 < a.toInt + m.toInt + c.toNat) := by
  have bit : (addBinary a m c).overflow = ((~~~(a ^^^ m)) &&& (a ^^^ (addBinary a m c).result)).getLsbD 7 := by
    show (((~~~(a ^^^ m)) &&& (a ^^^ (addBinary a m c).result) &&& 0x80) != 0) = _
    generalize ((~~~(a ^^^ m)) &&& (a ^^^ (addBinary a m c).result)) = q
    revert q; decide
  have msb : ∀ b : Byte, b.getLsbD 7 = decide (128 ≤ b.toNat) := by decide
  rw [bit, BitVec.getLsbD_and, BitVec.getLsbD_not, BitVec.getLsbD_xor, BitVec.getLsbD_xor]
  simp only [msb, BitVec.toInt_eq_toNat_cond]
  have := sign_mismatch_iff_out_of_range a.toNat m.toNat (addBinary a m c).result.toNat c.toNat a.isLt m.isLt
    (addBinary a m c).result.isLt (by cases c <;> simp) (addBinary_result_toNat a m c)
  simpa using this

end Sys2Proof.Machine
end

