-- ==== Sys2Proof/Laws/Exec.lean ====
section
/-! SUPPORT. The meaning of an instruction as a function of its mnemonic and its operand: one equation, so that a proof about all
instructions is a case split over the 56 mnemonics and not over the 151 rows. -/

namespace Sys2Proof.Laws

open Sys2Proof.Machine

/-- The 8-bit source operand (R98, R100); 0 for an operand that is none. -/
def sourceByte (s : State) : Operand → Byte
  | .imm d => d
  | .mem m => memOperand s m
  | .imp => 0
  | .acc => 0
  | .ind _ => 0
  | .rel _ => 0

/-- The memory operand of a store, an increment or decrement, or a shift of memory. -/
def cellForm : Operand → MemForm
  | .mem m => m
  | .imp => .zp 0
  | .acc => .zp 0
  | .imm _ => .zp 0
  | .ind _ => .zp 0
  | .rel _ => .zp 0

/-- A shift or rotate of `A` or of memory (R140). -/
def shiftBy (op : ShiftOp) (o : Operand) (s : State) : Result :=
  match o with
  | .acc => shiftAcc op s
  | .mem m => shiftMem op m s
  | .imp => shiftAcc op s
  | .imm _ => shiftAcc op s
  | .ind _ => shiftAcc op s
  | .rel _ => shiftAcc op s

/-- The 16-bit target of a jump or a call (R91, R94). -/
def jumpTarget (s : State) : Operand → Addr
  | .mem m => effectiveAddress s m
  | .ind ptr => indirectTarget s ptr
  | .imp => 0
  | .acc => 0
  | .imm _ => 0
  | .rel _ => 0

/-- The displacement of a branch (R97). -/
def displacement : Operand → Byte
  | .rel d => d
  | .imp => 0
  | .acc => 0
  | .imm _ => 0
  | .mem _ => 0
  | .ind _ => 0

/-- What `exec` does with an instruction of a mnemonic and an operand. -/
def execBy (m : Mnemonic) (o : Operand) (s : State) : Result :=
  match m with
  | .adc => addWithCarry (sourceByte s o) s
  | .and => logicResult (s.a &&& sourceByte s o) s
  | .asl => shiftBy .asl o s
  | .bcc => branchIf (!s.flag .c) (displacement o) s
  | .bcs => branchIf (s.flag .c) (displacement o) s
  | .beq => branchIf (s.flag .z) (displacement o) s
  | .bit => bitTest (sourceByte s o) s
  | .bmi => branchIf (s.flag .n) (displacement o) s
  | .bne => branchIf (!s.flag .z) (displacement o) s
  | .bpl => branchIf (!s.flag .n) (displacement o) s
  | .brk => .next s
  | .bvc => branchIf (!s.flag .v) (displacement o) s
  | .bvs => branchIf (s.flag .v) (displacement o) s
  | .clc => flagInstr .c false s
  | .cld => flagInstr .d false s
  | .cli => flagInstr .i false s
  | .clv => flagInstr .v false s
  | .cmp => compareReg s.a (sourceByte s o) s
  | .cpx => compareReg s.x (sourceByte s o) s
  | .cpy => compareReg s.y (sourceByte s o) s
  | .dec => addToCell (-1) (cellForm o) s
  | .dex => addToReg (-1) .x s
  | .dey => addToReg (-1) .y s
  | .eor => logicResult (s.a ^^^ sourceByte s o) s
  | .inc => addToCell 1 (cellForm o) s
  | .inx => addToReg 1 .x s
  | .iny => addToReg 1 .y s
  | .jmp => .next (s.setPc (jumpTarget s o))
  | .jsr => execJsr (jumpTarget s o) s
  | .lda => loadReg .a (sourceByte s o) s
  | .ldx => loadReg .x (sourceByte s o) s
  | .ldy => loadReg .y (sourceByte s o) s
  | .lsr => shiftBy .lsr o s
  | .nop => .next s
  | .ora => logicResult (s.a ||| sourceByte s o) s
  | .pha => .next (s.push s.a)
  | .php => .next (s.push s.p)
  | .pla => .next ((s.pop.2.setReg .a s.pop.1).setZN s.pop.1)
  | .plp => .next (s.pop.2.setP s.pop.1)
  | .rol => shiftBy .rol o s
  | .ror => shiftBy .ror o s
  | .rti => .next s
  | .rts => execRts s
  | .sbc => subtractWithBorrow (sourceByte s o) s
  | .sec => flagInstr .c true s
  | .sed => flagInstr .d true s
  | .sei => flagInstr .i true s
  | .sta => storeByte (cellForm o) s.a s
  | .stx => storeByte (cellForm o) s.x s
  | .sty => storeByte (cellForm o) s.y s
  | .tax => transfer .x s.a s
  | .tay => transfer .y s.a s
  | .tsx => transfer .x s.sp s
  | .txa => transfer .a s.x s
  | .txs => .next (s.setSp s.x)
  | .tya => transfer .a s.y s

/-- Every arm of `exec` does what its mnemonic and operand say. -/
theorem exec_eq_execBy (i : Instr) (s : State) : exec i s = execBy i.mnemonic i.operand s := by
  cases i <;> rfl

end Sys2Proof.Laws
end

