-- ==== Sys2Proof/Laws/State.lean ====
section
/-! SUPPORT. What each named update of a state does to each field: one lemma for each field and update, true by unfolding the
update once, so that no later proof unfolds a record update. -/

namespace Sys2Proof.Machine

/-! ### `write` -/

@[simp] theorem State.write_a (s : State) (addr : Addr) (v : Byte) : (s.write addr v).a = s.a := rfl
@[simp] theorem State.write_x (s : State) (addr : Addr) (v : Byte) : (s.write addr v).x = s.x := rfl
@[simp] theorem State.write_y (s : State) (addr : Addr) (v : Byte) : (s.write addr v).y = s.y := rfl
@[simp] theorem State.write_sp (s : State) (addr : Addr) (v : Byte) : (s.write addr v).sp = s.sp := rfl
@[simp] theorem State.write_pc (s : State) (addr : Addr) (v : Byte) : (s.write addr v).pc = s.pc := rfl
@[simp] theorem State.write_p (s : State) (addr : Addr) (v : Byte) : (s.write addr v).p = s.p := rfl
@[simp] theorem State.write_mem (s : State) (addr : Addr) (v : Byte) : (s.write addr v).mem = s.mem.write addr.toNat v := rfl
@[simp] theorem State.write_jsrcnt (s : State) (addr : Addr) (v : Byte) : (s.write addr v).jsrcnt = s.jsrcnt := rfl
@[simp] theorem State.write_terminated (s : State) (addr : Addr) (v : Byte) : (s.write addr v).terminated = s.terminated := rfl
@[simp] theorem State.write_codeStart (s : State) (addr : Addr) (v : Byte) : (s.write addr v).codeStart = s.codeStart := rfl
@[simp] theorem State.write_codeEnd (s : State) (addr : Addr) (v : Byte) : (s.write addr v).codeEnd = s.codeEnd := rfl

/-! ### `setSp` -/

@[simp] theorem State.setSp_a (s : State) (v : Byte) : (s.setSp v).a = s.a := rfl
@[simp] theorem State.setSp_x (s : State) (v : Byte) : (s.setSp v).x = s.x := rfl
@[simp] theorem State.setSp_y (s : State) (v : Byte) : (s.setSp v).y = s.y := rfl
@[simp] theorem State.setSp_sp (s : State) (v : Byte) : (s.setSp v).sp = v := rfl
@[simp] theorem State.setSp_pc (s : State) (v : Byte) : (s.setSp v).pc = s.pc := rfl
@[simp] theorem State.setSp_p (s : State) (v : Byte) : (s.setSp v).p = s.p := rfl
@[simp] theorem State.setSp_mem (s : State) (v : Byte) : (s.setSp v).mem = s.mem := rfl
@[simp] theorem State.setSp_jsrcnt (s : State) (v : Byte) : (s.setSp v).jsrcnt = s.jsrcnt := rfl
@[simp] theorem State.setSp_terminated (s : State) (v : Byte) : (s.setSp v).terminated = s.terminated := rfl
@[simp] theorem State.setSp_codeStart (s : State) (v : Byte) : (s.setSp v).codeStart = s.codeStart := rfl
@[simp] theorem State.setSp_codeEnd (s : State) (v : Byte) : (s.setSp v).codeEnd = s.codeEnd := rfl

/-! ### `setPc` -/

@[simp] theorem State.setPc_a (s : State) (w : Addr) : (s.setPc w).a = s.a := rfl
@[simp] theorem State.setPc_x (s : State) (w : Addr) : (s.setPc w).x = s.x := rfl
@[simp] theorem State.setPc_y (s : State) (w : Addr) : (s.setPc w).y = s.y := rfl
@[simp] theorem State.setPc_sp (s : State) (w : Addr) : (s.setPc w).sp = s.sp := rfl
@[simp] theorem State.setPc_pc (s : State) (w : Addr) : (s.setPc w).pc = w := rfl
@[simp] theorem State.setPc_p (s : State) (w : Addr) : (s.setPc w).p = s.p := rfl
@[simp] theorem State.setPc_mem (s : State) (w : Addr) : (s.setPc w).mem = s.mem := rfl
@[simp] theorem State.setPc_jsrcnt (s : State) (w : Addr) : (s.setPc w).jsrcnt = s.jsrcnt := rfl
@[simp] theorem State.setPc_terminated (s : State) (w : Addr) : (s.setPc w).terminated = s.terminated := rfl
@[simp] theorem State.setPc_codeStart (s : State) (w : Addr) : (s.setPc w).codeStart = s.codeStart := rfl
@[simp] theorem State.setPc_codeEnd (s : State) (w : Addr) : (s.setPc w).codeEnd = s.codeEnd := rfl

/-! ### `setP` -/

@[simp] theorem State.setP_a (s : State) (v : Byte) : (s.setP v).a = s.a := rfl
@[simp] theorem State.setP_x (s : State) (v : Byte) : (s.setP v).x = s.x := rfl
@[simp] theorem State.setP_y (s : State) (v : Byte) : (s.setP v).y = s.y := rfl
@[simp] theorem State.setP_sp (s : State) (v : Byte) : (s.setP v).sp = s.sp := rfl
@[simp] theorem State.setP_pc (s : State) (v : Byte) : (s.setP v).pc = s.pc := rfl
@[simp] theorem State.setP_p (s : State) (v : Byte) : (s.setP v).p = v := rfl
@[simp] theorem State.setP_mem (s : State) (v : Byte) : (s.setP v).mem = s.mem := rfl
@[simp] theorem State.setP_jsrcnt (s : State) (v : Byte) : (s.setP v).jsrcnt = s.jsrcnt := rfl
@[simp] theorem State.setP_terminated (s : State) (v : Byte) : (s.setP v).terminated = s.terminated := rfl
@[simp] theorem State.setP_codeStart (s : State) (v : Byte) : (s.setP v).codeStart = s.codeStart := rfl
@[simp] theorem State.setP_codeEnd (s : State) (v : Byte) : (s.setP v).codeEnd = s.codeEnd := rfl

/-! ### `setJsrcnt` -/

@[simp] theorem State.setJsrcnt_a (s : State) (n : Nat) : (s.setJsrcnt n).a = s.a := rfl
@[simp] theorem State.setJsrcnt_x (s : State) (n : Nat) : (s.setJsrcnt n).x = s.x := rfl
@[simp] theorem State.setJsrcnt_y (s : State) (n : Nat) : (s.setJsrcnt n).y = s.y := rfl
@[simp] theorem State.setJsrcnt_sp (s : State) (n : Nat) : (s.setJsrcnt n).sp = s.sp := rfl
@[simp] theorem State.setJsrcnt_pc (s : State) (n : Nat) : (s.setJsrcnt n).pc = s.pc := rfl
@[simp] theorem State.setJsrcnt_p (s : State) (n : Nat) : (s.setJsrcnt n).p = s.p := rfl
@[simp] theorem State.setJsrcnt_mem (s : State) (n : Nat) : (s.setJsrcnt n).mem = s.mem := rfl
@[simp] theorem State.setJsrcnt_jsrcnt (s : State) (n : Nat) : (s.setJsrcnt n).jsrcnt = n := rfl
@[simp] theorem State.setJsrcnt_terminated (s : State) (n : Nat) : (s.setJsrcnt n).terminated = s.terminated := rfl
@[simp] theorem State.setJsrcnt_codeStart (s : State) (n : Nat) : (s.setJsrcnt n).codeStart = s.codeStart := rfl
@[simp] theorem State.setJsrcnt_codeEnd (s : State) (n : Nat) : (s.setJsrcnt n).codeEnd = s.codeEnd := rfl

/-! ### `setTerminated` -/

@[simp] theorem State.setTerminated_a (s : State) (b : Bool) : (s.setTerminated b).a = s.a := rfl
@[simp] theorem State.setTerminated_x (s : State) (b : Bool) : (s.setTerminated b).x = s.x := rfl
@[simp] theorem State.setTerminated_y (s : State) (b : Bool) : (s.setTerminated b).y = s.y := rfl
@[simp] theorem State.setTerminated_sp (s : State) (b : Bool) : (s.setTerminated b).sp = s.sp := rfl
@[simp] theorem State.setTerminated_pc (s : State) (b : Bool) : (s.setTerminated b).pc = s.pc := rfl
@[simp] theorem State.setTerminated_p (s : State) (b : Bool) : (s.setTerminated b).p = s.p := rfl
@[simp] theorem State.setTerminated_mem (s : State) (b : Bool) : (s.setTerminated b).mem = s.mem := rfl
@[simp] theorem State.setTerminated_jsrcnt (s : State) (b : Bool) : (s.setTerminated b).jsrcnt = s.jsrcnt := rfl
@[simp] theorem State.setTerminated_terminated (s : State) (b : Bool) : (s.setTerminated b).terminated = b := rfl
@[simp] theorem State.setTerminated_codeStart (s : State) (b : Bool) : (s.setTerminated b).codeStart = s.codeStart := rfl
@[simp] theorem State.setTerminated_codeEnd (s : State) (b : Bool) : (s.setTerminated b).codeEnd = s.codeEnd := rfl

/-! ### `clearMemory` -/

@[simp] theorem State.clearMemory_a (s : State) : (s.clearMemory).a = s.a := rfl
@[simp] theorem State.clearMemory_x (s : State) : (s.clearMemory).x = s.x := rfl
@[simp] theorem State.clearMemory_y (s : State) : (s.clearMemory).y = s.y := rfl
@[simp] theorem State.clearMemory_sp (s : State) : (s.clearMemory).sp = s.sp := rfl
@[simp] theorem State.clearMemory_pc (s : State) : (s.clearMemory).pc = s.pc := rfl
@[simp] theorem State.clearMemory_p (s : State) : (s.clearMemory).p = s.p := rfl
@[simp] theorem State.clearMemory_mem (s : State) : (s.clearMemory).mem = [] := rfl
@[simp] theorem State.clearMemory_jsrcnt (s : State) : (s.clearMemory).jsrcnt = s.jsrcnt := rfl
@[simp] theorem State.clearMemory_terminated (s : State) : (s.clearMemory).terminated = s.terminated := rfl
@[simp] theorem State.clearMemory_codeStart (s : State) : (s.clearMemory).codeStart = s.codeStart := rfl
@[simp] theorem State.clearMemory_codeEnd (s : State) : (s.clearMemory).codeEnd = s.codeEnd := rfl

/-! ### `setFlag` -/

@[simp] theorem State.setFlag_a (s : State) (f : Flag) (b : Bool) : (s.setFlag f b).a = s.a := rfl
@[simp] theorem State.setFlag_x (s : State) (f : Flag) (b : Bool) : (s.setFlag f b).x = s.x := rfl
@[simp] theorem State.setFlag_y (s : State) (f : Flag) (b : Bool) : (s.setFlag f b).y = s.y := rfl
@[simp] theorem State.setFlag_sp (s : State) (f : Flag) (b : Bool) : (s.setFlag f b).sp = s.sp := rfl
@[simp] theorem State.setFlag_pc (s : State) (f : Flag) (b : Bool) : (s.setFlag f b).pc = s.pc := rfl
@[simp] theorem State.setFlag_p (s : State) (f : Flag) (b : Bool) : (s.setFlag f b).p = f.put b s.p := rfl
@[simp] theorem State.setFlag_mem (s : State) (f : Flag) (b : Bool) : (s.setFlag f b).mem = s.mem := rfl
@[simp] theorem State.setFlag_jsrcnt (s : State) (f : Flag) (b : Bool) : (s.setFlag f b).jsrcnt = s.jsrcnt := rfl
@[simp] theorem State.setFlag_terminated (s : State) (f : Flag) (b : Bool) : (s.setFlag f b).terminated = s.terminated := rfl
@[simp] theorem State.setFlag_codeStart (s : State) (f : Flag) (b : Bool) : (s.setFlag f b).codeStart = s.codeStart := rfl
@[simp] theorem State.setFlag_codeEnd (s : State) (f : Flag) (b : Bool) : (s.setFlag f b).codeEnd = s.codeEnd := rfl

/-! ### `setReg` -/

@[simp] theorem State.setReg_a_a (s : State) (v : Byte) : (s.setReg .a v).a = v := rfl
@[simp] theorem State.setReg_x_a (s : State) (v : Byte) : (s.setReg .x v).a = s.a := rfl
@[simp] theorem State.setReg_y_a (s : State) (v : Byte) : (s.setReg .y v).a = s.a := rfl
@[simp] theorem State.setReg_a_x (s : State) (v : Byte) : (s.setReg .a v).x = s.x := rfl
@[simp] theorem State.setReg_x_x (s : State) (v : Byte) : (s.setReg .x v).x = v := rfl
@[simp] theorem State.setReg_y_x (s : State) (v : Byte) : (s.setReg .y v).x = s.x := rfl
@[simp] theorem State.setReg_a_y (s : State) (v : Byte) : (s.setReg .a v).y = s.y := rfl
@[simp] theorem State.setReg_x_y (s : State) (v : Byte) : (s.setReg .x v).y = s.y := rfl
@[simp] theorem State.setReg_y_y (s : State) (v : Byte) : (s.setReg .y v).y = v := rfl
@[simp] theorem State.setReg_sp (s : State) (r : Reg) (v : Byte) : (s.setReg r v).sp = s.sp := by cases r <;> rfl
@[simp] theorem State.setReg_pc (s : State) (r : Reg) (v : Byte) : (s.setReg r v).pc = s.pc := by cases r <;> rfl
@[simp] theorem State.setReg_p (s : State) (r : Reg) (v : Byte) : (s.setReg r v).p = s.p := by cases r <;> rfl
@[simp] theorem State.setReg_mem (s : State) (r : Reg) (v : Byte) : (s.setReg r v).mem = s.mem := by cases r <;> rfl
@[simp] theorem State.setReg_jsrcnt (s : State) (r : Reg) (v : Byte) : (s.setReg r v).jsrcnt = s.jsrcnt := by cases r <;> rfl
@[simp] theorem State.setReg_terminated (s : State) (r : Reg) (v : Byte) : (s.setReg r v).terminated = s.terminated := by cases r <;> rfl
@[simp] theorem State.setReg_codeStart (s : State) (r : Reg) (v : Byte) : (s.setReg r v).codeStart = s.codeStart := by cases r <;> rfl
@[simp] theorem State.setReg_codeEnd (s : State) (r : Reg) (v : Byte) : (s.setReg r v).codeEnd = s.codeEnd := by cases r <;> rfl

/-! ### `setZN` -/

@[simp] theorem State.setZN_a (s : State) (v : Byte) : (s.setZN v).a = s.a := rfl
@[simp] theorem State.setZN_x (s : State) (v : Byte) : (s.setZN v).x = s.x := rfl
@[simp] theorem State.setZN_y (s : State) (v : Byte) : (s.setZN v).y = s.y := rfl
@[simp] theorem State.setZN_sp (s : State) (v : Byte) : (s.setZN v).sp = s.sp := rfl
@[simp] theorem State.setZN_pc (s : State) (v : Byte) : (s.setZN v).pc = s.pc := rfl
@[simp] theorem State.setZN_mem (s : State) (v : Byte) : (s.setZN v).mem = s.mem := rfl
@[simp] theorem State.setZN_jsrcnt (s : State) (v : Byte) : (s.setZN v).jsrcnt = s.jsrcnt := rfl
@[simp] theorem State.setZN_terminated (s : State) (v : Byte) : (s.setZN v).terminated = s.terminated := rfl
@[simp] theorem State.setZN_codeStart (s : State) (v : Byte) : (s.setZN v).codeStart = s.codeStart := rfl
@[simp] theorem State.setZN_codeEnd (s : State) (v : Byte) : (s.setZN v).codeEnd = s.codeEnd := rfl

/-! ### `push` and `pop` -/

@[simp] theorem State.push_a (s : State) (v : Byte) : (s.push v).a = s.a := rfl
@[simp] theorem State.push_x (s : State) (v : Byte) : (s.push v).x = s.x := rfl
@[simp] theorem State.push_y (s : State) (v : Byte) : (s.push v).y = s.y := rfl
@[simp] theorem State.push_sp (s : State) (v : Byte) : (s.push v).sp = s.sp - 1 := rfl
@[simp] theorem State.push_pc (s : State) (v : Byte) : (s.push v).pc = s.pc := rfl
@[simp] theorem State.push_p (s : State) (v : Byte) : (s.push v).p = s.p := rfl
@[simp] theorem State.push_mem (s : State) (v : Byte) : (s.push v).mem = s.mem.write (stackAddr s.sp).toNat v := rfl
@[simp] theorem State.push_jsrcnt (s : State) (v : Byte) : (s.push v).jsrcnt = s.jsrcnt := rfl
@[simp] theorem State.push_terminated (s : State) (v : Byte) : (s.push v).terminated = s.terminated := rfl
@[simp] theorem State.push_codeStart (s : State) (v : Byte) : (s.push v).codeStart = s.codeStart := rfl
@[simp] theorem State.push_codeEnd (s : State) (v : Byte) : (s.push v).codeEnd = s.codeEnd := rfl
@[simp] theorem State.pop_a (s : State) : s.pop.2.a = s.a := rfl
@[simp] theorem State.pop_x (s : State) : s.pop.2.x = s.x := rfl
@[simp] theorem State.pop_y (s : State) : s.pop.2.y = s.y := rfl
@[simp] theorem State.pop_sp (s : State) : s.pop.2.sp = s.sp + 1 := rfl
@[simp] theorem State.pop_pc (s : State) : s.pop.2.pc = s.pc := rfl
@[simp] theorem State.pop_p (s : State) : s.pop.2.p = s.p := rfl
@[simp] theorem State.pop_mem (s : State) : s.pop.2.mem = s.mem := rfl
@[simp] theorem State.pop_jsrcnt (s : State) : s.pop.2.jsrcnt = s.jsrcnt := rfl
@[simp] theorem State.pop_terminated (s : State) : s.pop.2.terminated = s.terminated := rfl
@[simp] theorem State.pop_codeStart (s : State) : s.pop.2.codeStart = s.codeStart := rfl
@[simp] theorem State.pop_codeEnd (s : State) : s.pop.2.codeEnd = s.codeEnd := rfl
@[simp] theorem State.pop_value (s : State) : s.pop.1 = s.read (stackAddr (s.sp + 1)) := rfl

/-! ### `reg`, `read` and `flag` over the updates -/

@[simp] theorem State.reg_setReg (s : State) (r q : Reg) (v : Byte) :
    (s.setReg r v).reg q = if q = r then v else s.reg q := by cases r <;> cases q <;> rfl
@[simp] theorem State.reg_write (s : State) (addr : Addr) (v : Byte) (q : Reg) : (s.write addr v).reg q = s.reg q := by cases q <;> rfl
@[simp] theorem State.reg_setSp (s : State) (v : Byte) (q : Reg) : (s.setSp v).reg q = s.reg q := by cases q <;> rfl
@[simp] theorem State.reg_setPc (s : State) (w : Addr) (q : Reg) : (s.setPc w).reg q = s.reg q := by cases q <;> rfl
@[simp] theorem State.reg_setP (s : State) (v : Byte) (q : Reg) : (s.setP v).reg q = s.reg q := by cases q <;> rfl
@[simp] theorem State.reg_setJsrcnt (s : State) (n : Nat) (q : Reg) : (s.setJsrcnt n).reg q = s.reg q := by cases q <;> rfl
@[simp] theorem State.reg_setTerminated (s : State) (b : Bool) (q : Reg) : (s.setTerminated b).reg q = s.reg q := by cases q <;> rfl
@[simp] theorem State.reg_clearMemory (s : State) (q : Reg) : (s.clearMemory).reg q = s.reg q := by cases q <;> rfl
@[simp] theorem State.reg_setFlag (s : State) (f : Flag) (b : Bool) (q : Reg) : (s.setFlag f b).reg q = s.reg q := by cases q <;> rfl
@[simp] theorem State.reg_setZN (s : State) (v : Byte) (q : Reg) : (s.setZN v).reg q = s.reg q := by cases q <;> rfl
@[simp] theorem State.reg_push (s : State) (v : Byte) (q : Reg) : (s.push v).reg q = s.reg q := by cases q <;> rfl
@[simp] theorem State.reg_pop (s : State) (q : Reg) : s.pop.2.reg q = s.reg q := by cases q <;> rfl

@[simp] theorem State.read_setSp (s : State) (v : Byte) (addr : Addr) : (s.setSp v).read addr = s.read addr := rfl
@[simp] theorem State.read_setPc (s : State) (w : Addr) (addr : Addr) : (s.setPc w).read addr = s.read addr := rfl
@[simp] theorem State.read_setP (s : State) (v : Byte) (addr : Addr) : (s.setP v).read addr = s.read addr := rfl
@[simp] theorem State.read_setJsrcnt (s : State) (n : Nat) (addr : Addr) : (s.setJsrcnt n).read addr = s.read addr := rfl
@[simp] theorem State.read_setTerminated (s : State) (b : Bool) (addr : Addr) : (s.setTerminated b).read addr = s.read addr := rfl
@[simp] theorem State.read_setFlag (s : State) (f : Flag) (b : Bool) (addr : Addr) : (s.setFlag f b).read addr = s.read addr := rfl
@[simp] theorem State.read_setReg (s : State) (r : Reg) (v : Byte) (addr : Addr) : (s.setReg r v).read addr = s.read addr := by cases r <;> rfl
@[simp] theorem State.read_setZN (s : State) (v : Byte) (addr : Addr) : (s.setZN v).read addr = s.read addr := rfl
@[simp] theorem State.read_pop (s : State) (addr : Addr) : s.pop.2.read addr = s.read addr := rfl

@[simp] theorem State.flag_write (s : State) (addr : Addr) (v : Byte) (f : Flag) : (s.write addr v).flag f = s.flag f := rfl
@[simp] theorem State.flag_setSp (s : State) (v : Byte) (f : Flag) : (s.setSp v).flag f = s.flag f := rfl
@[simp] theorem State.flag_setPc (s : State) (w : Addr) (f : Flag) : (s.setPc w).flag f = s.flag f := rfl
@[simp] theorem State.flag_setJsrcnt (s : State) (n : Nat) (f : Flag) : (s.setJsrcnt n).flag f = s.flag f := rfl
@[simp] theorem State.flag_setTerminated (s : State) (b : Bool) (f : Flag) : (s.setTerminated b).flag f = s.flag f := rfl
@[simp] theorem State.flag_clearMemory (s : State) (f : Flag) : (s.clearMemory).flag f = s.flag f := rfl
@[simp] theorem State.flag_setReg (s : State) (r : Reg) (v : Byte) (f : Flag) : (s.setReg r v).flag f = s.flag f := by cases r <;> rfl
@[simp] theorem State.flag_push (s : State) (v : Byte) (f : Flag) : (s.push v).flag f = s.flag f := rfl
@[simp] theorem State.flag_pop (s : State) (f : Flag) : s.pop.2.flag f = s.flag f := rfl

end Sys2Proof.Machine
end

