-- ==== Sys2Proof/Laws/Flags.lean ====
section
/-! SUPPORT. The status register's bits (R15, R22): what a flag write leaves in each flag. -/

namespace Sys2Proof.Machine

/-- Each flag is the bit of `P` that the layout of R15 gives it. -/
theorem Flag.test_eq_bit (p : Byte) :
    Flag.c.test p = p.getLsbD 0 ∧ Flag.z.test p = p.getLsbD 1 ∧ Flag.i.test p = p.getLsbD 2 ∧ Flag.d.test p = p.getLsbD 3 ∧
    Flag.b.test p = p.getLsbD 4 ∧ Flag.bit5.test p = p.getLsbD 5 ∧ Flag.v.test p = p.getLsbD 6 ∧ Flag.n.test p = p.getLsbD 7 := by
  revert p; decide

/-- A flag put into a status byte is the one read back, and no other flag changes (R15). -/
@[simp] theorem Flag.test_put (f g : Flag) (b : Bool) (p : Byte) : g.test (f.put b p) = if g = f then b else g.test p := by
  obtain ⟨c, z, i, d, br, b5, v, n⟩ := Flag.test_eq_bit p
  obtain ⟨c', z', i', d', br', b5', v', n'⟩ := Flag.test_eq_bit (f.put b p)
  cases g <;> simp only [c, z, i, d, br, b5, v, n, c', z', i', d', br', b5', v', n'] <;>
    cases f <;> cases b <;> simp [Flag.put, Flag.mask]

@[simp] theorem State.flag_setFlag (s : State) (f g : Flag) (b : Bool) :
    (s.setFlag f b).flag g = if g = f then b else s.flag g := Flag.test_put f g b s.p

@[simp] theorem State.flag_setP (s : State) (v : Byte) (f : Flag) : (s.setP v).flag f = f.test v := rfl

/-- R22: Z and N from the value, the other six bits unchanged. -/
@[simp] theorem State.flag_setZN (s : State) (v : Byte) (g : Flag) :
    (s.setZN v).flag g = if g = .n then v.getLsbD 7 else if g = .z then v == 0 else s.flag g := by
  simp [State.setZN]

/-- Two status bytes with the same eight flags are the same byte. -/
theorem Flag.ext_byte (p q : Byte) (h : ∀ f : Flag, f.test p = f.test q) : p = q := by
  have hp := Flag.test_eq_bit p
  have hq := Flag.test_eq_bit q
  refine BitVec.eq_of_getLsbD_eq fun k hk => ?_
  have := h .c; have := h .z; have := h .i; have := h .d
  have := h .b; have := h .bit5; have := h .v; have := h .n
  match k, hk with
  | 0, _ => simp_all
  | 1, _ => simp_all
  | 2, _ => simp_all
  | 3, _ => simp_all
  | 4, _ => simp_all
  | 5, _ => simp_all
  | 6, _ => simp_all
  | 7, _ => simp_all

end Sys2Proof.Machine
end

