-- ==== Sys2Proof/Laws/Memory.lean ====
section
/-! SUPPORT. The memory operations (R44, R45): a read after a write, and the canonical form kept. -/

namespace Sys2Proof.Machine

theorem Memory.read_erase (m : Memory) (a b : Nat) :
    (m.erase a).read b = if a = b then Config.clearedByte else m.read b := by
  induction m with
  | nil => simp [Memory.erase, Memory.read]
  | cons c rest ih =>
    obtain ⟨k, w⟩ := c
    by_cases hk : k = a
    · subst hk; by_cases hb : k = b <;> simp_all [Memory.erase, Memory.read]
    · by_cases hb : k = b
      · subst hb; simp [Memory.erase, Memory.read, hk, Ne.symm hk]
      · simp_all [Memory.erase, Memory.read]

theorem Memory.read_insert (m : Memory) (a b : Nat) (v : Byte)
    (absent : ∀ c ∈ m, c.1 ≠ a) : (m.insert a v).read b = if a = b then v else m.read b := by
  induction m with
  | nil => simp [Memory.insert, Memory.read]
  | cons c rest ih =>
    obtain ⟨k, w⟩ := c
    have hk : k ≠ a := absent (k, w) (by simp)
    have ih := ih (fun c hc => absent c (by simp [hc]))
    by_cases hlt : a < k
    · simp [Memory.insert, Memory.read, hlt]
    · by_cases hb : k = b
      · subst hb; simp [Memory.insert, Memory.read, hlt, Ne.symm hk]
      · simp [Memory.insert, Memory.read, hlt, hb, ih]

theorem Memory.erase_absent (m : Memory) (a : Nat) : ∀ c ∈ m.erase a, c.1 ≠ a := by
  induction m with
  | nil => simp [Memory.erase]
  | cons c rest ih =>
    obtain ⟨k, w⟩ := c
    by_cases hk : k = a
    · simpa [Memory.erase, hk] using ih
    · simp only [Memory.erase, hk, if_false, List.mem_cons]
      rintro c (rfl | hc)
      · exact hk
      · exact ih c hc

/-- R45: the written cell holds the value, every other cell what it held. It needs no premise on the form of the memory. -/
theorem Memory.read_write (m : Memory) (a b : Nat) (v : Byte) :
    (m.write a v).read b = if a = b then v else m.read b := by
  unfold Memory.write
  by_cases hv : v = Config.clearedByte
  · simp only [hv, if_true, Memory.read_erase]
  · simp only [hv, if_false]
    rw [Memory.read_insert _ _ _ _ (Memory.erase_absent m a), Memory.read_erase]
    by_cases hab : a = b <;> simp [hab]

/-- The canonical form, taken apart. -/
theorem Memory.wf_cons (k : Nat) (w : Byte) (rest : Memory) :
    Memory.wf ((k, w) :: rest) = true ↔
      k < Config.memorySize ∧ w ≠ Config.clearedByte ∧ (∀ c ∈ rest, k < c.1) ∧ Memory.wf rest = true := by
  simp [Memory.wf, and_assoc]

theorem Memory.mem_of_mem_erase (m : Memory) (a : Nat) : ∀ c ∈ m.erase a, c ∈ m := by
  induction m with
  | nil => simp [Memory.erase]
  | cons c rest ih =>
    obtain ⟨k, w⟩ := c
    by_cases hk : k = a
    · simp only [Memory.erase, hk, if_true]; intro c hc; simp [ih c hc]
    · simp only [Memory.erase, hk, if_false, List.mem_cons]
      rintro c (rfl | hc)
      · simp
      · simp [ih c hc]

theorem Memory.erase_wf (m : Memory) (a : Nat) (h : m.wf = true) : (m.erase a).wf = true := by
  induction m with
  | nil => exact h
  | cons c rest ih =>
    obtain ⟨k, w⟩ := c
    obtain ⟨hk, hw, hr, ht⟩ := (Memory.wf_cons k w rest).1 h
    by_cases hka : k = a
    · simpa [Memory.erase, hka] using ih ht
    · simp only [Memory.erase, hka, if_false]
      exact (Memory.wf_cons _ _ _).2 ⟨hk, hw, fun c hc => hr c (Memory.mem_of_mem_erase rest a c hc), ih ht⟩

theorem Memory.mem_insert (m : Memory) (a : Nat) (v : Byte) : ∀ c ∈ m.insert a v, c = (a, v) ∨ c ∈ m := by
  induction m with
  | nil => simp [Memory.insert]
  | cons c rest ih =>
    obtain ⟨k, w⟩ := c
    by_cases hlt : a < k
    · simp [Memory.insert, hlt]
    · simp only [Memory.insert, hlt, if_false, List.mem_cons]
      rintro c (rfl | hc)
      · simp
      · rcases ih c hc with h | h <;> simp [h]

theorem Memory.insert_wf (m : Memory) (a : Nat) (v : Byte) (h : m.wf = true) (ha : a < Config.memorySize)
    (hv : v ≠ Config.clearedByte) (absent : ∀ c ∈ m, c.1 ≠ a) : (m.insert a v).wf = true := by
  induction m with
  | nil => simp [Memory.insert, Memory.wf, ha, hv]
  | cons c rest ih =>
    obtain ⟨k, w⟩ := c
    obtain ⟨hk, hw, hr, ht⟩ := (Memory.wf_cons k w rest).1 h
    by_cases hlt : a < k
    · simp only [Memory.insert, hlt, if_true]
      refine (Memory.wf_cons _ _ _).2 ⟨ha, hv, ?_, h⟩
      simp only [List.mem_cons]
      rintro c (rfl | hc)
      · exact hlt
      · exact Nat.lt_trans hlt (hr c hc)
    · simp only [Memory.insert, hlt, if_false]
      have hka : k < a := by
        have : k ≠ a := absent (k, w) (by simp)
        omega
      refine (Memory.wf_cons _ _ _).2 ⟨hk, hw, ?_, ih ht (fun c hc => absent c (by simp [hc]))⟩
      intro c hc
      rcases Memory.mem_insert rest a v c hc with rfl | h
      · exact hka
      · exact hr c h

/-- A write keeps the canonical form. -/
theorem Memory.write_wf (m : Memory) (a : Nat) (v : Byte) (h : m.wf = true) (ha : a < Config.memorySize) :
    (m.write a v).wf = true := by
  unfold Memory.write
  by_cases hv : v = Config.clearedByte
  · simpa [hv] using Memory.erase_wf m a h
  · simpa [hv] using Memory.insert_wf _ a v (Memory.erase_wf m a h) ha hv (Memory.erase_absent m a)

/-- `MemWrite` then `MemRead` (R44, R45). -/
theorem State.read_write (s : State) (a b : Addr) (v : Byte) :
    (s.write a v).read b = if a = b then v else s.read b := by
  simp only [State.write, State.read, Memory.read_write]
  by_cases h : a = b
  · simp [h]
  · have : a.toNat ≠ b.toNat := fun e => h (BitVec.eq_of_toNat_eq e)
    simp [h, this]

/-- `MemWrite` keeps the canonical form. -/
theorem State.write_wf (s : State) (a : Addr) (v : Byte) (h : s.mem.wf = true) : (s.write a v).mem.wf = true :=
  Memory.write_wf s.mem a.toNat v h a.isLt

/-- A sequence of writes keeps the canonical form. -/
theorem State.writeBytes_wf (bytes : List Byte) (s : State) (a : Addr) (h : s.mem.wf = true) :
    (s.writeBytes a bytes).mem.wf = true := by
  induction bytes generalizing s a with
  | nil => exact h
  | cons b rest ih => exact ih _ _ (State.write_wf s a b h)

/-- A sequence of writes changes nothing but memory. -/
theorem State.writeBytes_eq (bytes : List Byte) (s : State) (a : Addr) :
    s.writeBytes a bytes = { s with mem := (s.writeBytes a bytes).mem } := by
  induction bytes generalizing s a with
  | nil => rfl
  | cons b rest ih =>
    show (s.write a b).writeBytes (a + 1) rest = _
    rw [ih]; rfl

/-- After a sequence of writes that does not wrap, its cells hold its bytes and every other cell what it held. -/
theorem State.read_writeBytes (bytes : List Byte) (s : State) (a addr : Addr) (fits : a.toNat + bytes.length ≤ 65536) :
    (s.writeBytes a bytes).read addr =
      if a.toNat ≤ addr.toNat ∧ addr.toNat < a.toNat + bytes.length then bytes.getD (addr.toNat - a.toNat) 0
      else s.read addr := by
  induction bytes generalizing s a with
  | nil => rw [if_neg (by simp)]; rfl
  | cons b rest ih =>
    have hb := addr.isLt
    have ha := a.isLt
    have ne : a ≠ addr → a.toNat ≠ addr.toNat := fun e h => e (BitVec.eq_of_toNat_eq h)
    simp only [List.length_cons] at fits
    show ((s.write a b).writeBytes (a + 1) rest).read addr = _
    cases rest with
    | nil =>
      simp only [State.writeBytes, State.read_write, List.length_cons, List.length_nil]
      by_cases e : a = addr
      · subst e; simp
      · have := ne e
        rw [if_neg e, if_neg (by omega)]
    | cons c r =>
      simp only [List.length_cons] at fits ih ⊢
      have next : (a + 1).toNat = a.toNat + 1 := by rw [BitVec.toNat_add]; simp; omega
      rw [ih _ _ (by omega), State.read_write, next]
      by_cases e : a = addr
      · subst e; rw [if_neg (by omega), if_pos rfl, if_pos (by omega)]; simp
      · have := ne e
        by_cases hh : a.toNat + 1 ≤ addr.toNat ∧ addr.toNat < a.toNat + 1 + (r.length + 1)
        · rw [if_pos hh, if_pos (by omega), show addr.toNat - a.toNat = (addr.toNat - (a.toNat + 1)) + 1 by omega]; rfl
        · rw [if_neg hh, if_neg e, if_neg (by omega)]

/-- Clearing memory gives the canonical form. -/
theorem State.clearMemory_wf (s : State) : s.clearMemory.mem.wf = true := rfl

/-- A push keeps the canonical form. -/
theorem State.push_wf (s : State) (v : Byte) (h : s.mem.wf = true) : (s.push v).mem.wf = true :=
  State.write_wf s _ v h

/-- Reset memory has the canonical form. -/
theorem State.reset_wf : State.reset.mem.wf = true := rfl

end Sys2Proof.Machine
end

