-- ==== Sys2Proof/Laws/Ops.lean ====
section
/-! SUPPORT. One lemma for each shared operation that says once what it can do, for later proofs to cite. -/

namespace Sys2Proof.Machine

/-! ### Bytes and words (R42, R48) -/

/-- `{hi, lo} = (hi << 8) | lo` as a number (00_scope.md section 6). -/
theorem word_toNat (h l : Byte) : (word h l).toNat = h.toNat * 256 + l.toNat := by
  have hl := l.isLt
  simp only [word, BitVec.toNat_append]
  rw [← Nat.shiftLeft_add_eq_or_of_lt hl, Nat.shiftLeft_eq]

theorem highByte_toNat (w : Addr) : (highByte w).toNat = w.toNat / 256 := by
  have := w.isLt
  simp only [highByte, BitVec.extractLsb'_toNat, Nat.shiftRight_eq_div_pow]
  omega

theorem lowByte_toNat (w : Addr) : (lowByte w).toNat = w.toNat % 256 := by
  simp only [lowByte, BitVec.extractLsb'_toNat, Nat.shiftRight_zero]

@[simp] theorem highByte_word (h l : Byte) : highByte (word h l) = h := by
  refine BitVec.eq_of_toNat_eq ?_
  have := l.isLt
  rw [highByte_toNat, word_toNat]
  omega

@[simp] theorem lowByte_word (h l : Byte) : lowByte (word h l) = l := by
  refine BitVec.eq_of_toNat_eq ?_
  have := l.isLt
  rw [lowByte_toNat, word_toNat]
  omega

@[simp] theorem word_high_low (w : Addr) : word (highByte w) (lowByte w) = w := by
  refine BitVec.eq_of_toNat_eq ?_
  rw [word_toNat, highByte_toNat, lowByte_toNat]
  omega

/-- The two halves of a word are the encoder's operand bytes (R61). -/
theorem operandWord_eq_word (lo hi : Byte) : operandWord lo hi = word hi lo := rfl

@[simp] theorem zeroPage_toNat (d : Byte) : (zeroPage d).toNat = d.toNat := by
  have := d.isLt
  simp only [zeroPage, BitVec.toNat_setWidth]
  omega

@[simp] theorem stackAddr_toNat (sp : Byte) : (stackAddr sp).toNat = 256 + sp.toNat := by
  simp only [stackAddr, pageAddr, word_toNat, Config.stackPage]
  rfl

/-- Two stack cells are the same only for the same pointer. -/
@[simp] theorem stackAddr_inj (p q : Byte) : stackAddr p = stackAddr q ↔ p = q := by
  refine ⟨fun h => ?_, fun h => by rw [h]⟩
  have h := congrArg BitVec.toNat h
  simp only [stackAddr_toNat] at h
  exact BitVec.eq_of_toNat_eq (by omega)

/-! ### The fetch (R80, R82) -/

/-- `FetchByte` at or past the window's end raises and leaves the state (R82). -/
theorem fetchByte_past_end (s : State) (h : s.codeEnd ≤ s.pc) : fetchByte s = .error (.endOfDataFetch s.pc, s) := by
  simp [fetchByte, raise, h]

/-- `FetchByte` below the window's end gives the byte at `PC` and advances `PC` (R82). -/
theorem fetchByte_below_end (s : State) (h : s.pc < s.codeEnd) : fetchByte s = .ok (s.read s.pc, s.setPc (s.pc + 1)) := by
  simp [fetchByte, BitVec.not_le.2 h]

/-- What a successful `FetchByte` did. -/
theorem fetchByte_ok (s s' : State) (b : Byte) (h : fetchByte s = .ok (b, s')) :
    s.pc < s.codeEnd ∧ b = s.read s.pc ∧ s' = s.setPc (s.pc + 1) := by
  rcases Decidable.em (s.codeEnd ≤ s.pc) with hp | hp
  · simp [fetchByte_past_end s hp] at h
  · rw [fetchByte_below_end s (BitVec.not_le.1 hp)] at h
    simp only [Except.ok.injEq, Prod.mk.injEq] at h
    exact ⟨BitVec.not_le.1 hp, h.1.symm, h.2.symm⟩

/-- What a faulting `FetchByte` did. -/
theorem fetchByte_error (s : State) (e : Fault × State) (h : fetchByte s = .error e) :
    s.codeEnd ≤ s.pc ∧ e = (.endOfDataFetch s.pc, s) := by
  rcases Decidable.em (s.codeEnd ≤ s.pc) with hp | hp
  · rw [fetchByte_past_end s hp] at h
    exact ⟨hp, (Except.error.inj h).symm⟩
  · simp [fetchByte_below_end s (BitVec.not_le.1 hp)] at h

/-- A successful operand fetch changes nothing but `PC`. -/
theorem fetchOperand_ok (shape : Shape) (s s' : State) (i : Instr) (h : fetchOperand shape s = .ok (i, s')) :
    s' = s.setPc s'.pc := by
  cases shape with
  | bare j => simp only [fetchOperand, Except.ok.injEq, Prod.mk.injEq] at h; rw [← h.2]; rfl
  | byte f =>
    simp only [fetchOperand] at h
    split at h
    · cases h
    · rename_i d s1 h1
      obtain ⟨-, -, rfl⟩ := fetchByte_ok _ _ _ h1
      simp only [Except.ok.injEq, Prod.mk.injEq] at h
      rw [← h.2]; rfl
  | word f =>
    simp only [fetchOperand] at h
    split at h
    · cases h
    · rename_i d s1 h1
      obtain ⟨-, -, rfl⟩ := fetchByte_ok _ _ _ h1
      split at h
      · cases h
      · rename_i d' s2 h2
        obtain ⟨-, -, rfl⟩ := fetchByte_ok _ _ _ h2
        simp only [Except.ok.injEq, Prod.mk.injEq] at h
        rw [← h.2]; rfl

/-- A successful fetch of an instruction changes nothing but `PC` (R101). -/
theorem fetchInstr_ok (s s' : State) (i : Instr) (h : fetchInstr s = .ok (i, s')) : s' = s.setPc s'.pc := by
  simp only [fetchInstr] at h
  split at h
  · cases h
  · rename_i op s1 h1
    obtain ⟨-, -, rfl⟩ := fetchByte_ok _ _ _ h1
    split at h
    · cases h
    · rw [fetchOperand_ok _ _ _ _ h]; rfl

/-- A faulting operand fetch has changed nothing but `PC` (R263). -/
theorem fetchOperand_error (shape : Shape) (s : State) (e : Fault × State) (h : fetchOperand shape s = .error e) :
    e.2 = s.setPc e.2.pc := by
  cases shape with
  | bare i => simp [fetchOperand] at h
  | byte f =>
    simp only [fetchOperand] at h
    split at h
    · rename_i h1
      obtain ⟨-, rfl⟩ := fetchByte_error _ _ h1
      cases h; rfl
    · cases h
  | word f =>
    simp only [fetchOperand] at h
    split at h
    · rename_i h1
      obtain ⟨-, rfl⟩ := fetchByte_error _ _ h1
      cases h; rfl
    · rename_i h1
      obtain ⟨-, -, rfl⟩ := fetchByte_ok _ _ _ h1
      split at h
      · rename_i h2
        obtain ⟨-, rfl⟩ := fetchByte_error _ _ h2
        cases h; rfl
      · cases h

/-- At a fault nothing has changed but `PC` (R263). -/
theorem fetchInstr_error (s : State) (e : Fault × State) (h : fetchInstr s = .error e) : e.2 = s.setPc e.2.pc := by
  simp only [fetchInstr] at h
  split at h
  · rename_i h1
    obtain ⟨-, rfl⟩ := fetchByte_error _ _ h1
    cases h; rfl
  · rename_i op s1 h1
    obtain ⟨-, -, rfl⟩ := fetchByte_ok _ _ _ h1
    split at h
    · cases h; rfl
    · rw [fetchOperand_error _ _ _ h]; rfl

/-! ### The shared operations of the meanings: what a next state is -/

theorem loadReg_next {r : Reg} {v : Byte} {s t : State} (h : loadReg r v s = .next t) : t = (s.setReg r v).setZN v :=
  (Host.Outcome.next.inj h).symm

theorem storeByte_next {m : MemForm} {v : Byte} {s t : State} (h : storeByte m v s = .next t) :
    t = s.write (effectiveAddress s m) v := (Host.Outcome.next.inj h).symm

theorem transfer_next {r : Reg} {v : Byte} {s t : State} (h : transfer r v s = .next t) : t = (s.setReg r v).setZN v :=
  (Host.Outcome.next.inj h).symm

theorem shiftAcc_next {op : ShiftOp} {s t : State} (h : shiftAcc op s = .next t) :
    t = ((s.setReg .a (shift op s.a (s.flag .c)).1).setFlag .c (shift op s.a (s.flag .c)).2).setZN (shift op s.a (s.flag .c)).1 :=
  (Host.Outcome.next.inj h).symm

theorem shiftMem_next {op : ShiftOp} {m : MemForm} {s t : State} (h : shiftMem op m s = .next t) :
    t = ((s.write (effectiveAddress s m) (shift op (memOperand s m) (s.flag .c)).1).setFlag .c
      (shift op (memOperand s m) (s.flag .c)).2).setZN (shift op (memOperand s m) (s.flag .c)).1 :=
  (Host.Outcome.next.inj h).symm

theorem logicResult_next {r : Byte} {s t : State} (h : logicResult r s = .next t) : t = (s.setReg .a r).setZN r :=
  (Host.Outcome.next.inj h).symm

theorem bitTest_next {m : Byte} {s t : State} (h : bitTest m s = .next t) :
    t = ((s.setFlag .n (m.getLsbD 7)).setFlag .v (m.getLsbD 6)).setFlag .z ((s.a &&& m) == 0) :=
  (Host.Outcome.next.inj h).symm

theorem addWithCarry_next {m : Byte} {s t : State} (h : addWithCarry m s = .next t) :
    (s.flag .d = true ∧ t = decimalToA (decimalAdc s.a m (s.flag .c)) s) ∨ (s.flag .d = false ∧ t = addBinaryToA m s) := by
  unfold addWithCarry at h
  split at h
  · exact .inl ⟨‹_›, (Host.Outcome.next.inj h).symm⟩
  · exact .inr ⟨by simpa using ‹¬s.flag .d = true›, (Host.Outcome.next.inj h).symm⟩

theorem subtractWithBorrow_next {m : Byte} {s t : State} (h : subtractWithBorrow m s = .next t) :
    (s.flag .d = true ∧ t = decimalToA (decimalSbc s.a m (s.flag .c)) s) ∨
    (s.flag .d = false ∧ t = addBinaryToA (m ^^^ 0xFF) s) := by
  unfold subtractWithBorrow at h
  split at h
  · exact .inl ⟨‹_›, (Host.Outcome.next.inj h).symm⟩
  · exact .inr ⟨by simpa using ‹¬s.flag .d = true›, (Host.Outcome.next.inj h).symm⟩

theorem compareReg_next {r m : Byte} {s t : State} (h : compareReg r m s = .next t) :
    t = ((s.setFlag .z (r == m)).setFlag .c (decide (m ≤ r))).setFlag .n ((r - m).getLsbD 7) :=
  (Host.Outcome.next.inj h).symm

theorem addToCell_next {delta : Byte} {m : MemForm} {s t : State} (h : addToCell delta m s = .next t) :
    t = (s.write (effectiveAddress s m) (memOperand s m + delta)).setZN (memOperand s m + delta) :=
  (Host.Outcome.next.inj h).symm

theorem addToReg_next {delta : Byte} {q : Reg} {s t : State} (h : addToReg delta q s = .next t) :
    t = (s.setReg q (s.reg q + delta)).setZN (s.reg q + delta) := (Host.Outcome.next.inj h).symm

theorem branchIf_next {cond : Bool} {d : Byte} {s t : State} (h : branchIf cond d s = .next t) :
    t = if cond then s.setPc (branchTarget s d) else s := (Host.Outcome.next.inj h).symm

theorem flagInstr_next {f : Flag} {b : Bool} {s t : State} (h : flagInstr f b s = .next t) : t = s.setFlag f b :=
  (Host.Outcome.next.inj h).symm

theorem execJsr_next {a16 : Addr} {s t : State} (h : execJsr a16 s = .next t) :
    t = (((s.push (highByte s.pc)).push (lowByte s.pc)).setPc a16).setJsrcnt (s.jsrcnt + 1) := (Host.Outcome.next.inj h).symm

theorem execRts_next {s t : State} (h : execRts s = .next t) :
    (0 < s.jsrcnt ∧ t = (s.pop.2.pop.2.setPc (word s.pop.2.pop.1 s.pop.1)).setJsrcnt (s.jsrcnt - 1)) ∨
    (s.jsrcnt = 0 ∧ t = s.setTerminated true) := by
  unfold execRts at h
  split at h
  · exact .inl ⟨‹_›, (Host.Outcome.next.inj h).symm⟩
  · exact .inr ⟨by omega, (Host.Outcome.next.inj h).symm⟩

end Sys2Proof.Machine
end

