-- ==== Sys2Proof/Laws/HostOps.lean ====
section
/-! SUPPORT. The host interface: when a load fits, and the equations of a run. -/

namespace Sys2Proof.Machine

/-- R293: an integer comparison. -/
theorem loadFits_iff (bytes : List Byte) (address : Addr) :
    loadFits bytes address = true ↔ address.toNat + bytes.length ≤ 65535 := by
  unfold loadFits Config.loadLimit
  exact decide_eq_true_iff

/-- The end of a window that fits does not wrap (R293). -/
theorem codeEnd_toNat (bytes : List Byte) (address : Addr) (fits : address.toNat + bytes.length ≤ 65535) :
    (address + BitVec.ofNat 16 bytes.length).toNat = address.toNat + bytes.length := by
  rw [BitVec.toNat_add, BitVec.toNat_ofNat]
  omega

/-- Placing an instruction keeps the canonical form of memory. -/
theorem placeInstr_wf (s : State) (bytes : List Byte) (h : s.mem.wf = true) : (placeInstr s bytes).mem.wf = true :=
  State.writeBytes_wf bytes s (fetchBase s) h

/-- A step is refused by a machine whose run has ended (R81). -/
theorem step_terminated (s : State) (h : s.terminated = true) : step s = .refused .runEnded := by
  simp [step, h]

/-- What a step of a machine that has not ended is (R80). -/
theorem step_running (s : State) (h : s.terminated = false) :
    step s = match fetchInstr s with
      | .error e => .fault e.1
      | .ok (i, s') => exec i s' := by
  unfold step
  exact if_neg (by simp [h])

/-- A run that has ended stays where it is (R300). -/
theorem run_ended (n : Nat) (s : State) (h : (s.terminated || atEndOfData s) = true) : run n s = .ended s := by
  unfold run
  rw [if_pos h]

/-- A run that goes on makes one step (R300). -/
theorem run_succ (n : Nat) (s : State) (h : ¬(s.terminated || atEndOfData s) = true) :
    run (n + 1) s = match step s with
      | .next s' => run n s'
      | .fault f => .faulted f (faultState s)
      | .refused r => .refused r s := by
  exact if_neg h

end Sys2Proof.Machine
end

