-- ==== Sys2Proof/Laws/PerInstr.lean ====
section
/-! SUPPORT. A statement about every instruction as syntax, one lemma for each constructor: it is a legal row of the metadata
table and its encoding has the length of its mode (30_encoding.md R60, R63, R66). -/

namespace Sys2Proof.Laws

/-- The instruction is well formed and its encoding is as long as its addressing mode says. -/
def EncodingShape.Statement (i : Instr) : Prop := i.wellFormed = true ∧ (encode i).length = i.length

theorem EncodingShape.adcImm (d : Byte) : EncodingShape.Statement (.adcImm d) := ⟨rfl, rfl⟩
theorem EncodingShape.adcZp (d : Byte) : EncodingShape.Statement (.adcZp d) := ⟨rfl, rfl⟩
theorem EncodingShape.adcZpx (d : Byte) : EncodingShape.Statement (.adcZpx d) := ⟨rfl, rfl⟩
theorem EncodingShape.adcAbs (a16 : Addr) : EncodingShape.Statement (.adcAbs a16) := ⟨rfl, rfl⟩
theorem EncodingShape.adcAbsx (a16 : Addr) : EncodingShape.Statement (.adcAbsx a16) := ⟨rfl, rfl⟩
theorem EncodingShape.adcAbsy (a16 : Addr) : EncodingShape.Statement (.adcAbsy a16) := ⟨rfl, rfl⟩
theorem EncodingShape.adcIndx (d : Byte) : EncodingShape.Statement (.adcIndx d) := ⟨rfl, rfl⟩
theorem EncodingShape.adcIndy (d : Byte) : EncodingShape.Statement (.adcIndy d) := ⟨rfl, rfl⟩
theorem EncodingShape.andImm (d : Byte) : EncodingShape.Statement (.andImm d) := ⟨rfl, rfl⟩
theorem EncodingShape.andZp (d : Byte) : EncodingShape.Statement (.andZp d) := ⟨rfl, rfl⟩
theorem EncodingShape.andZpx (d : Byte) : EncodingShape.Statement (.andZpx d) := ⟨rfl, rfl⟩
theorem EncodingShape.andAbs (a16 : Addr) : EncodingShape.Statement (.andAbs a16) := ⟨rfl, rfl⟩
theorem EncodingShape.andAbsx (a16 : Addr) : EncodingShape.Statement (.andAbsx a16) := ⟨rfl, rfl⟩
theorem EncodingShape.andAbsy (a16 : Addr) : EncodingShape.Statement (.andAbsy a16) := ⟨rfl, rfl⟩
theorem EncodingShape.andIndx (d : Byte) : EncodingShape.Statement (.andIndx d) := ⟨rfl, rfl⟩
theorem EncodingShape.andIndy (d : Byte) : EncodingShape.Statement (.andIndy d) := ⟨rfl, rfl⟩
theorem EncodingShape.aslAcc : EncodingShape.Statement (.aslAcc) := ⟨rfl, rfl⟩
theorem EncodingShape.aslZp (d : Byte) : EncodingShape.Statement (.aslZp d) := ⟨rfl, rfl⟩
theorem EncodingShape.aslZpx (d : Byte) : EncodingShape.Statement (.aslZpx d) := ⟨rfl, rfl⟩
theorem EncodingShape.aslAbs (a16 : Addr) : EncodingShape.Statement (.aslAbs a16) := ⟨rfl, rfl⟩
theorem EncodingShape.aslAbsx (a16 : Addr) : EncodingShape.Statement (.aslAbsx a16) := ⟨rfl, rfl⟩
theorem EncodingShape.bcc (d : Byte) : EncodingShape.Statement (.bcc d) := ⟨rfl, rfl⟩
theorem EncodingShape.bcs (d : Byte) : EncodingShape.Statement (.bcs d) := ⟨rfl, rfl⟩
theorem EncodingShape.beq (d : Byte) : EncodingShape.Statement (.beq d) := ⟨rfl, rfl⟩
theorem EncodingShape.bitZp (d : Byte) : EncodingShape.Statement (.bitZp d) := ⟨rfl, rfl⟩
theorem EncodingShape.bitAbs (a16 : Addr) : EncodingShape.Statement (.bitAbs a16) := ⟨rfl, rfl⟩
theorem EncodingShape.bmi (d : Byte) : EncodingShape.Statement (.bmi d) := ⟨rfl, rfl⟩
theorem EncodingShape.bne (d : Byte) : EncodingShape.Statement (.bne d) := ⟨rfl, rfl⟩
theorem EncodingShape.bpl (d : Byte) : EncodingShape.Statement (.bpl d) := ⟨rfl, rfl⟩
theorem EncodingShape.brk : EncodingShape.Statement (.brk) := ⟨rfl, rfl⟩
theorem EncodingShape.bvc (d : Byte) : EncodingShape.Statement (.bvc d) := ⟨rfl, rfl⟩
theorem EncodingShape.bvs (d : Byte) : EncodingShape.Statement (.bvs d) := ⟨rfl, rfl⟩
theorem EncodingShape.clc : EncodingShape.Statement (.clc) := ⟨rfl, rfl⟩
theorem EncodingShape.cld : EncodingShape.Statement (.cld) := ⟨rfl, rfl⟩
theorem EncodingShape.cli : EncodingShape.Statement (.cli) := ⟨rfl, rfl⟩
theorem EncodingShape.clv : EncodingShape.Statement (.clv) := ⟨rfl, rfl⟩
theorem EncodingShape.cmpImm (d : Byte) : EncodingShape.Statement (.cmpImm d) := ⟨rfl, rfl⟩
theorem EncodingShape.cmpZp (d : Byte) : EncodingShape.Statement (.cmpZp d) := ⟨rfl, rfl⟩
theorem EncodingShape.cmpZpx (d : Byte) : EncodingShape.Statement (.cmpZpx d) := ⟨rfl, rfl⟩
theorem EncodingShape.cmpAbs (a16 : Addr) : EncodingShape.Statement (.cmpAbs a16) := ⟨rfl, rfl⟩
theorem EncodingShape.cmpAbsx (a16 : Addr) : EncodingShape.Statement (.cmpAbsx a16) := ⟨rfl, rfl⟩
theorem EncodingShape.cmpAbsy (a16 : Addr) : EncodingShape.Statement (.cmpAbsy a16) := ⟨rfl, rfl⟩
theorem EncodingShape.cmpIndx (d : Byte) : EncodingShape.Statement (.cmpIndx d) := ⟨rfl, rfl⟩
theorem EncodingShape.cmpIndy (d : Byte) : EncodingShape.Statement (.cmpIndy d) := ⟨rfl, rfl⟩
theorem EncodingShape.cpxImm (d : Byte) : EncodingShape.Statement (.cpxImm d) := ⟨rfl, rfl⟩
theorem EncodingShape.cpxZp (d : Byte) : EncodingShape.Statement (.cpxZp d) := ⟨rfl, rfl⟩
theorem EncodingShape.cpxAbs (a16 : Addr) : EncodingShape.Statement (.cpxAbs a16) := ⟨rfl, rfl⟩
theorem EncodingShape.cpyImm (d : Byte) : EncodingShape.Statement (.cpyImm d) := ⟨rfl, rfl⟩
theorem EncodingShape.cpyZp (d : Byte) : EncodingShape.Statement (.cpyZp d) := ⟨rfl, rfl⟩
theorem EncodingShape.cpyAbs (a16 : Addr) : EncodingShape.Statement (.cpyAbs a16) := ⟨rfl, rfl⟩
theorem EncodingShape.decZp (d : Byte) : EncodingShape.Statement (.decZp d) := ⟨rfl, rfl⟩
theorem EncodingShape.decZpx (d : Byte) : EncodingShape.Statement (.decZpx d) := ⟨rfl, rfl⟩
theorem EncodingShape.decAbs (a16 : Addr) : EncodingShape.Statement (.decAbs a16) := ⟨rfl, rfl⟩
theorem EncodingShape.decAbsx (a16 : Addr) : EncodingShape.Statement (.decAbsx a16) := ⟨rfl, rfl⟩
theorem EncodingShape.dex : EncodingShape.Statement (.dex) := ⟨rfl, rfl⟩
theorem EncodingShape.dey : EncodingShape.Statement (.dey) := ⟨rfl, rfl⟩
theorem EncodingShape.eorImm (d : Byte) : EncodingShape.Statement (.eorImm d) := ⟨rfl, rfl⟩
theorem EncodingShape.eorZp (d : Byte) : EncodingShape.Statement (.eorZp d) := ⟨rfl, rfl⟩
theorem EncodingShape.eorZpx (d : Byte) : EncodingShape.Statement (.eorZpx d) := ⟨rfl, rfl⟩
theorem EncodingShape.eorAbs (a16 : Addr) : EncodingShape.Statement (.eorAbs a16) := ⟨rfl, rfl⟩
theorem EncodingShape.eorAbsx (a16 : Addr) : EncodingShape.Statement (.eorAbsx a16) := ⟨rfl, rfl⟩
theorem EncodingShape.eorAbsy (a16 : Addr) : EncodingShape.Statement (.eorAbsy a16) := ⟨rfl, rfl⟩
theorem EncodingShape.eorIndx (d : Byte) : EncodingShape.Statement (.eorIndx d) := ⟨rfl, rfl⟩
theorem EncodingShape.eorIndy (d : Byte) : EncodingShape.Statement (.eorIndy d) := ⟨rfl, rfl⟩
theorem EncodingShape.incZp (d : Byte) : EncodingShape.Statement (.incZp d) := ⟨rfl, rfl⟩
theorem EncodingShape.incZpx (d : Byte) : EncodingShape.Statement (.incZpx d) := ⟨rfl, rfl⟩
theorem EncodingShape.incAbs (a16 : Addr) : EncodingShape.Statement (.incAbs a16) := ⟨rfl, rfl⟩
theorem EncodingShape.incAbsx (a16 : Addr) : EncodingShape.Statement (.incAbsx a16) := ⟨rfl, rfl⟩
theorem EncodingShape.inx : EncodingShape.Statement (.inx) := ⟨rfl, rfl⟩
theorem EncodingShape.iny : EncodingShape.Statement (.iny) := ⟨rfl, rfl⟩
theorem EncodingShape.jmpAbs (a16 : Addr) : EncodingShape.Statement (.jmpAbs a16) := ⟨rfl, rfl⟩
theorem EncodingShape.jmpInd (a16 : Addr) : EncodingShape.Statement (.jmpInd a16) := ⟨rfl, rfl⟩
theorem EncodingShape.jsr (a16 : Addr) : EncodingShape.Statement (.jsr a16) := ⟨rfl, rfl⟩
theorem EncodingShape.ldaImm (d : Byte) : EncodingShape.Statement (.ldaImm d) := ⟨rfl, rfl⟩
theorem EncodingShape.ldaZp (d : Byte) : EncodingShape.Statement (.ldaZp d) := ⟨rfl, rfl⟩
theorem EncodingShape.ldaZpx (d : Byte) : EncodingShape.Statement (.ldaZpx d) := ⟨rfl, rfl⟩
theorem EncodingShape.ldaAbs (a16 : Addr) : EncodingShape.Statement (.ldaAbs a16) := ⟨rfl, rfl⟩
theorem EncodingShape.ldaAbsx (a16 : Addr) : EncodingShape.Statement (.ldaAbsx a16) := ⟨rfl, rfl⟩
theorem EncodingShape.ldaAbsy (a16 : Addr) : EncodingShape.Statement (.ldaAbsy a16) := ⟨rfl, rfl⟩
theorem EncodingShape.ldaIndx (d : Byte) : EncodingShape.Statement (.ldaIndx d) := ⟨rfl, rfl⟩
theorem EncodingShape.ldaIndy (d : Byte) : EncodingShape.Statement (.ldaIndy d) := ⟨rfl, rfl⟩
theorem EncodingShape.ldxImm (d : Byte) : EncodingShape.Statement (.ldxImm d) := ⟨rfl, rfl⟩
theorem EncodingShape.ldxZp (d : Byte) : EncodingShape.Statement (.ldxZp d) := ⟨rfl, rfl⟩
theorem EncodingShape.ldxZpy (d : Byte) : EncodingShape.Statement (.ldxZpy d) := ⟨rfl, rfl⟩
theorem EncodingShape.ldxAbs (a16 : Addr) : EncodingShape.Statement (.ldxAbs a16) := ⟨rfl, rfl⟩
theorem EncodingShape.ldxAbsy (a16 : Addr) : EncodingShape.Statement (.ldxAbsy a16) := ⟨rfl, rfl⟩
theorem EncodingShape.ldyImm (d : Byte) : EncodingShape.Statement (.ldyImm d) := ⟨rfl, rfl⟩
theorem EncodingShape.ldyZp (d : Byte) : EncodingShape.Statement (.ldyZp d) := ⟨rfl, rfl⟩
theorem EncodingShape.ldyZpx (d : Byte) : EncodingShape.Statement (.ldyZpx d) := ⟨rfl, rfl⟩
theorem EncodingShape.ldyAbs (a16 : Addr) : EncodingShape.Statement (.ldyAbs a16) := ⟨rfl, rfl⟩
theorem EncodingShape.ldyAbsx (a16 : Addr) : EncodingShape.Statement (.ldyAbsx a16) := ⟨rfl, rfl⟩
theorem EncodingShape.lsrAcc : EncodingShape.Statement (.lsrAcc) := ⟨rfl, rfl⟩
theorem EncodingShape.lsrZp (d : Byte) : EncodingShape.Statement (.lsrZp d) := ⟨rfl, rfl⟩
theorem EncodingShape.lsrZpx (d : Byte) : EncodingShape.Statement (.lsrZpx d) := ⟨rfl, rfl⟩
theorem EncodingShape.lsrAbs (a16 : Addr) : EncodingShape.Statement (.lsrAbs a16) := ⟨rfl, rfl⟩
theorem EncodingShape.lsrAbsx (a16 : Addr) : EncodingShape.Statement (.lsrAbsx a16) := ⟨rfl, rfl⟩
theorem EncodingShape.nop : EncodingShape.Statement (.nop) := ⟨rfl, rfl⟩
theorem EncodingShape.oraImm (d : Byte) : EncodingShape.Statement (.oraImm d) := ⟨rfl, rfl⟩
theorem EncodingShape.oraZp (d : Byte) : EncodingShape.Statement (.oraZp d) := ⟨rfl, rfl⟩
theorem EncodingShape.oraZpx (d : Byte) : EncodingShape.Statement (.oraZpx d) := ⟨rfl, rfl⟩
theorem EncodingShape.oraAbs (a16 : Addr) : EncodingShape.Statement (.oraAbs a16) := ⟨rfl, rfl⟩
theorem EncodingShape.oraAbsx (a16 : Addr) : EncodingShape.Statement (.oraAbsx a16) := ⟨rfl, rfl⟩
theorem EncodingShape.oraAbsy (a16 : Addr) : EncodingShape.Statement (.oraAbsy a16) := ⟨rfl, rfl⟩
theorem EncodingShape.oraIndx (d : Byte) : EncodingShape.Statement (.oraIndx d) := ⟨rfl, rfl⟩
theorem EncodingShape.oraIndy (d : Byte) : EncodingShape.Statement (.oraIndy d) := ⟨rfl, rfl⟩
theorem EncodingShape.pha : EncodingShape.Statement (.pha) := ⟨rfl, rfl⟩
theorem EncodingShape.php : EncodingShape.Statement (.php) := ⟨rfl, rfl⟩
theorem EncodingShape.pla : EncodingShape.Statement (.pla) := ⟨rfl, rfl⟩
theorem EncodingShape.plp : EncodingShape.Statement (.plp) := ⟨rfl, rfl⟩
theorem EncodingShape.rolAcc : EncodingShape.Statement (.rolAcc) := ⟨rfl, rfl⟩
theorem EncodingShape.rolZp (d : Byte) : EncodingShape.Statement (.rolZp d) := ⟨rfl, rfl⟩
theorem EncodingShape.rolZpx (d : Byte) : EncodingShape.Statement (.rolZpx d) := ⟨rfl, rfl⟩
theorem EncodingShape.rolAbs (a16 : Addr) : EncodingShape.Statement (.rolAbs a16) := ⟨rfl, rfl⟩
theorem EncodingShape.rolAbsx (a16 : Addr) : EncodingShape.Statement (.rolAbsx a16) := ⟨rfl, rfl⟩
theorem EncodingShape.rorAcc : EncodingShape.Statement (.rorAcc) := ⟨rfl, rfl⟩
theorem EncodingShape.rorZp (d : Byte) : EncodingShape.Statement (.rorZp d) := ⟨rfl, rfl⟩
theorem EncodingShape.rorZpx (d : Byte) : EncodingShape.Statement (.rorZpx d) := ⟨rfl, rfl⟩
theorem EncodingShape.rorAbs (a16 : Addr) : EncodingShape.Statement (.rorAbs a16) := ⟨rfl, rfl⟩
theorem EncodingShape.rorAbsx (a16 : Addr) : EncodingShape.Statement (.rorAbsx a16) := ⟨rfl, rfl⟩
theorem EncodingShape.rti : EncodingShape.Statement (.rti) := ⟨rfl, rfl⟩
theorem EncodingShape.rts : EncodingShape.Statement (.rts) := ⟨rfl, rfl⟩
theorem EncodingShape.sbcImm (d : Byte) : EncodingShape.Statement (.sbcImm d) := ⟨rfl, rfl⟩
theorem EncodingShape.sbcZp (d : Byte) : EncodingShape.Statement (.sbcZp d) := ⟨rfl, rfl⟩
theorem EncodingShape.sbcZpx (d : Byte) : EncodingShape.Statement (.sbcZpx d) := ⟨rfl, rfl⟩
theorem EncodingShape.sbcAbs (a16 : Addr) : EncodingShape.Statement (.sbcAbs a16) := ⟨rfl, rfl⟩
theorem EncodingShape.sbcAbsx (a16 : Addr) : EncodingShape.Statement (.sbcAbsx a16) := ⟨rfl, rfl⟩
theorem EncodingShape.sbcAbsy (a16 : Addr) : EncodingShape.Statement (.sbcAbsy a16) := ⟨rfl, rfl⟩
theorem EncodingShape.sbcIndx (d : Byte) : EncodingShape.Statement (.sbcIndx d) := ⟨rfl, rfl⟩
theorem EncodingShape.sbcIndy (d : Byte) : EncodingShape.Statement (.sbcIndy d) := ⟨rfl, rfl⟩
theorem EncodingShape.sec : EncodingShape.Statement (.sec) := ⟨rfl, rfl⟩
theorem EncodingShape.sed : EncodingShape.Statement (.sed) := ⟨rfl, rfl⟩
theorem EncodingShape.sei : EncodingShape.Statement (.sei) := ⟨rfl, rfl⟩
theorem EncodingShape.staZp (d : Byte) : EncodingShape.Statement (.staZp d) := ⟨rfl, rfl⟩
theorem EncodingShape.staZpx (d : Byte) : EncodingShape.Statement (.staZpx d) := ⟨rfl, rfl⟩
theorem EncodingShape.staAbs (a16 : Addr) : EncodingShape.Statement (.staAbs a16) := ⟨rfl, rfl⟩
theorem EncodingShape.staAbsx (a16 : Addr) : EncodingShape.Statement (.staAbsx a16) := ⟨rfl, rfl⟩
theorem EncodingShape.staAbsy (a16 : Addr) : EncodingShape.Statement (.staAbsy a16) := ⟨rfl, rfl⟩
theorem EncodingShape.staIndx (d : Byte) : EncodingShape.Statement (.staIndx d) := ⟨rfl, rfl⟩
theorem EncodingShape.staIndy (d : Byte) : EncodingShape.Statement (.staIndy d) := ⟨rfl, rfl⟩
theorem EncodingShape.stxZp (d : Byte) : EncodingShape.Statement (.stxZp d) := ⟨rfl, rfl⟩
theorem EncodingShape.stxZpy (d : Byte) : EncodingShape.Statement (.stxZpy d) := ⟨rfl, rfl⟩
theorem EncodingShape.stxAbs (a16 : Addr) : EncodingShape.Statement (.stxAbs a16) := ⟨rfl, rfl⟩
theorem EncodingShape.styZp (d : Byte) : EncodingShape.Statement (.styZp d) := ⟨rfl, rfl⟩
theorem EncodingShape.styZpx (d : Byte) : EncodingShape.Statement (.styZpx d) := ⟨rfl, rfl⟩
theorem EncodingShape.styAbs (a16 : Addr) : EncodingShape.Statement (.styAbs a16) := ⟨rfl, rfl⟩
theorem EncodingShape.tax : EncodingShape.Statement (.tax) := ⟨rfl, rfl⟩
theorem EncodingShape.tay : EncodingShape.Statement (.tay) := ⟨rfl, rfl⟩
theorem EncodingShape.tsx : EncodingShape.Statement (.tsx) := ⟨rfl, rfl⟩
theorem EncodingShape.txa : EncodingShape.Statement (.txa) := ⟨rfl, rfl⟩
theorem EncodingShape.txs : EncodingShape.Statement (.txs) := ⟨rfl, rfl⟩
theorem EncodingShape.tya : EncodingShape.Statement (.tya) := ⟨rfl, rfl⟩

end Sys2Proof.Laws
end

