-- ==== Sys2Proof/Laws/Transactions.lean ====
section
/-! SUPPORT. What a recording of the accesses of a step holds in each of the three cases, and what replaying one does to memory. -/

namespace Sys2Proof.Machine

/-- The model's choice of assumption log 9: where there is no step, there is no access. -/
theorem stepTransactions_terminated (s : State) (h : s.terminated = true) : stepTransactions s = [] := by
  simp [stepTransactions, h]

/-- A step that runs `i` reads the stream bytes, then makes the accesses of `i`. -/
theorem stepTransactions_runs (s s' : State) (i : Instr) (h : s.terminated = false) (hf : fetchInstr s = .ok (i, s')) :
    stepTransactions s = streamReads s s.pc (s'.pc - s.pc).toNat ++ dataTransactions i s' := by
  simp [stepTransactions, h, hf]

/-- A step that faults has only the stream reads that succeeded. -/
theorem stepTransactions_faults (s : State) (e : Fault × State) (h : s.terminated = false) (hf : fetchInstr s = .error e) :
    stepTransactions s = streamReads s s.pc (e.2.pc - s.pc).toNat := by
  simp [stepTransactions, h, hf]

@[simp] theorem Memory.replay_append (l k : List Transaction) (m : Memory) : m.replay (l ++ k) = (m.replay l).replay k := by
  induction l generalizing m with
  | nil => rfl
  | cons t rest ih => cases t <;> exact ih _

/-- Fetching an instruction writes no cell. -/
@[simp] theorem Memory.replay_streamReads (s : State) (first : Addr) (n : Nat) (m : Memory) : m.replay (streamReads s first n) = m := by
  induction n generalizing first with
  | zero => rfl
  | succ n ih => exact ih (first + 1)

/-- Replaying accesses keeps the canonical form. -/
theorem Memory.replay_wf (l : List Transaction) (m : Memory) (h : m.wf = true) : (m.replay l).wf = true := by
  induction l generalizing m with
  | nil => exact h
  | cons t rest ih =>
    cases t with
    | read addr v => exact ih m h
    | write addr v => exact ih _ (Memory.write_wf m addr.toNat v h addr.isLt)

end Sys2Proof.Machine
end

