-- ==== Sys2Proof/Tests/Slice0.lean ====
section
/-! SUPPORT. Tests of single steps against the vectors of spec/95_test_vectors.md, of the decoder against the map of
spec/30_encoding.md, of the host operations and the faults, and a named witness for the hypotheses of every obligation that
has some. Every expected value comes from the spec. -/

namespace Sys2Proof.Tests

open Sys2Proof.Machine

/-! ### Helpers -/

/-- The instruction a list of bytes decodes to. -/
def decodesTo (bytes : List Byte) : Option Instr :=
  match decode bytes with
  | .ok (i, _) => some i
  | .error _ => none

/-- Memory with some more cells written. -/
def withCells (m : Memory) (cells : List Host.Cell) : Memory := cells.foldl (fun m c => m.write c.1 c.2) m

/-- The set-up of the vector tables: an image loaded at `base`, cells written, the registers set. -/
def start (bytes : List Byte) (cells : List Host.Cell) (a x y sp p : Byte) (jsrcnt : Nat := 0) (base : Addr := 0x0200) : State :=
  let s := (loadExecutable bytes base State.reset).2
  { s with mem := withCells s.mem cells, a := a, x := x, y := y, sp := sp, p := p, jsrcnt := jsrcnt }

/-- One step gives `[A, X, Y, S, P]`, `PC`, exactly these writes to memory, `JSRCNT` and `TERMINATED`; the window stays. -/
def stepsTo (s : State) (regs : List Byte) (pc : Addr) (written : List Host.Cell) (jsrcnt : Nat := 0)
    (terminated : Bool := false) : Bool :=
  match step s with
  | .next t =>
    [t.a, t.x, t.y, t.sp, t.p] == regs && t.pc == pc && t.mem == withCells s.mem written && t.jsrcnt == jsrcnt &&
    t.terminated == terminated && t.codeStart == s.codeStart && t.codeEnd == s.codeEnd
  | .fault _ => false
  | .refused _ => false

/-- One step faults so, with `PC` there and nothing else changed. -/
def faultsWith (s : State) (f : Fault) (pc : Addr) : Bool :=
  match step s with
  | .fault g => g == f && faultState s == s.setPc pc
  | .next _ => false
  | .refused _ => false

/-- The next state of a result, for witnesses; the reset state when there is none. -/
def nextOr : Result → State
  | .next t => t
  | .fault _ => State.reset
  | .refused _ => State.reset

/-- Is the result this next state? -/
def isNext (r : Result) (t : State) : Bool :=
  match r with
  | .next u => u == t
  | .fault _ => false
  | .refused _ => false

/-! ### Well-formedness: an ill-formed term for the one check there is, the legal (mnemonic, mode) pairs (R66, R71) -/

/-- Source: R66, R98 (no immediate store), R90 (zero page,Y), R94, R97, R154 and the "illegal" cells of their rows. -/
theorem test_illegal_pairs_refused :
    [legalPair .sta .imm, legalPair .bit .imm, legalPair .ldx .zpx, legalPair .stx .absy, legalPair .jmp .zp, legalPair .jsr .ind,
      legalPair .asl .imp, legalPair .inc .acc, legalPair .bne .abs, legalPair .brk .imm, legalPair .cpx .zpx, legalPair .sty .absx] =
    List.replicate 12 false := by decide

/-- Source: R66. -/
theorem test_wellformed_instructions :
    [(Instr.ldaIndy 0xFF).wellFormed, (Instr.stxZpy 0x00).wellFormed, (Instr.jmpInd 0xFFFF).wellFormed, Instr.rorAcc.wellFormed] =
    [true, true, true, true] := by decide

/-! ### Decoding: every row of the map -/

/-- Source: row 0x of the grid of R66, operand bytes by R62 (little-endian). -/
theorem test_decode_row_0 :
    [[0x00],
     [0x01, 0x9C],
     [0x05, 0x9C],
     [0x06, 0x9C],
     [0x08],
     [0x09, 0x9C],
     [0x0A],
     [0x0D, 0x34, 0x12],
     [0x0E, 0x34, 0x12]].map decodesTo =
    [some .brk,
     some (.oraIndx 0x9C),
     some (.oraZp 0x9C),
     some (.aslZp 0x9C),
     some .php,
     some (.oraImm 0x9C),
     some .aslAcc,
     some (.oraAbs 0x1234),
     some (.aslAbs 0x1234)] := by decide

/-- Source: row 1x of the grid of R66, operand bytes by R62 (little-endian). -/
theorem test_decode_row_1 :
    [[0x10, 0x9C],
     [0x11, 0x9C],
     [0x15, 0x9C],
     [0x16, 0x9C],
     [0x18],
     [0x19, 0x34, 0x12],
     [0x1D, 0x34, 0x12],
     [0x1E, 0x34, 0x12]].map decodesTo =
    [some (.bpl 0x9C),
     some (.oraIndy 0x9C),
     some (.oraZpx 0x9C),
     some (.aslZpx 0x9C),
     some .clc,
     some (.oraAbsy 0x1234),
     some (.oraAbsx 0x1234),
     some (.aslAbsx 0x1234)] := by decide

/-- Source: row 2x of the grid of R66, operand bytes by R62 (little-endian). -/
theorem test_decode_row_2 :
    [[0x20, 0x34, 0x12],
     [0x21, 0x9C],
     [0x24, 0x9C],
     [0x25, 0x9C],
     [0x26, 0x9C],
     [0x28],
     [0x29, 0x9C],
     [0x2A],
     [0x2C, 0x34, 0x12],
     [0x2D, 0x34, 0x12],
     [0x2E, 0x34, 0x12]].map decodesTo =
    [some (.jsr 0x1234),
     some (.andIndx 0x9C),
     some (.bitZp 0x9C),
     some (.andZp 0x9C),
     some (.rolZp 0x9C),
     some .plp,
     some (.andImm 0x9C),
     some .rolAcc,
     some (.bitAbs 0x1234),
     some (.andAbs 0x1234),
     some (.rolAbs 0x1234)] := by decide

/-- Source: row 3x of the grid of R66, operand bytes by R62 (little-endian). -/
theorem test_decode_row_3 :
    [[0x30, 0x9C],
     [0x31, 0x9C],
     [0x35, 0x9C],
     [0x36, 0x9C],
     [0x38],
     [0x39, 0x34, 0x12],
     [0x3D, 0x34, 0x12],
     [0x3E, 0x34, 0x12]].map decodesTo =
    [some (.bmi 0x9C),
     some (.andIndy 0x9C),
     some (.andZpx 0x9C),
     some (.rolZpx 0x9C),
     some .sec,
     some (.andAbsy 0x1234),
     some (.andAbsx 0x1234),
     some (.rolAbsx 0x1234)] := by decide

/-- Source: row 4x of the grid of R66, operand bytes by R62 (little-endian). -/
theorem test_decode_row_4 :
    [[0x40],
     [0x41, 0x9C],
     [0x45, 0x9C],
     [0x46, 0x9C],
     [0x48],
     [0x49, 0x9C],
     [0x4A],
     [0x4C, 0x34, 0x12],
     [0x4D, 0x34, 0x12],
     [0x4E, 0x34, 0x12]].map decodesTo =
    [some .rti,
     some (.eorIndx 0x9C),
     some (.eorZp 0x9C),
     some (.lsrZp 0x9C),
     some .pha,
     some (.eorImm 0x9C),
     some .lsrAcc,
     some (.jmpAbs 0x1234),
     some (.eorAbs 0x1234),
     some (.lsrAbs 0x1234)] := by decide

/-- Source: row 5x of the grid of R66, operand bytes by R62 (little-endian). -/
theorem test_decode_row_5 :
    [[0x50, 0x9C],
     [0x51, 0x9C],
     [0x55, 0x9C],
     [0x56, 0x9C],
     [0x58],
     [0x59, 0x34, 0x12],
     [0x5D, 0x34, 0x12],
     [0x5E, 0x34, 0x12]].map decodesTo =
    [some (.bvc 0x9C),
     some (.eorIndy 0x9C),
     some (.eorZpx 0x9C),
     some (.lsrZpx 0x9C),
     some .cli,
     some (.eorAbsy 0x1234),
     some (.eorAbsx 0x1234),
     some (.lsrAbsx 0x1234)] := by decide

/-- Source: row 6x of the grid of R66, operand bytes by R62 (little-endian). -/
theorem test_decode_row_6 :
    [[0x60],
     [0x61, 0x9C],
     [0x65, 0x9C],
     [0x66, 0x9C],
     [0x68],
     [0x69, 0x9C],
     [0x6A],
     [0x6C, 0x34, 0x12],
     [0x6D, 0x34, 0x12],
     [0x6E, 0x34, 0x12]].map decodesTo =
    [some .rts,
     some (.adcIndx 0x9C),
     some (.adcZp 0x9C),
     some (.rorZp 0x9C),
     some .pla,
     some (.adcImm 0x9C),
     some .rorAcc,
     some (.jmpInd 0x1234),
     some (.adcAbs 0x1234),
     some (.rorAbs 0x1234)] := by decide

/-- Source: row 7x of the grid of R66, operand bytes by R62 (little-endian). -/
theorem test_decode_row_7 :
    [[0x70, 0x9C],
     [0x71, 0x9C],
     [0x75, 0x9C],
     [0x76, 0x9C],
     [0x78],
     [0x79, 0x34, 0x12],
     [0x7D, 0x34, 0x12],
     [0x7E, 0x34, 0x12]].map decodesTo =
    [some (.bvs 0x9C),
     some (.adcIndy 0x9C),
     some (.adcZpx 0x9C),
     some (.rorZpx 0x9C),
     some .sei,
     some (.adcAbsy 0x1234),
     some (.adcAbsx 0x1234),
     some (.rorAbsx 0x1234)] := by decide

/-- Source: row 8x of the grid of R66, operand bytes by R62 (little-endian). -/
theorem test_decode_row_8 :
    [[0x81, 0x9C],
     [0x84, 0x9C],
     [0x85, 0x9C],
     [0x86, 0x9C],
     [0x88],
     [0x8A],
     [0x8C, 0x34, 0x12],
     [0x8D, 0x34, 0x12],
     [0x8E, 0x34, 0x12]].map decodesTo =
    [some (.staIndx 0x9C),
     some (.styZp 0x9C),
     some (.staZp 0x9C),
     some (.stxZp 0x9C),
     some .dey,
     some .txa,
     some (.styAbs 0x1234),
     some (.staAbs 0x1234),
     some (.stxAbs 0x1234)] := by decide

/-- Source: row 9x of the grid of R66, operand bytes by R62 (little-endian). -/
theorem test_decode_row_9 :
    [[0x90, 0x9C],
     [0x91, 0x9C],
     [0x94, 0x9C],
     [0x95, 0x9C],
     [0x96, 0x9C],
     [0x98],
     [0x99, 0x34, 0x12],
     [0x9A],
     [0x9D, 0x34, 0x12]].map decodesTo =
    [some (.bcc 0x9C),
     some (.staIndy 0x9C),
     some (.styZpx 0x9C),
     some (.staZpx 0x9C),
     some (.stxZpy 0x9C),
     some .tya,
     some (.staAbsy 0x1234),
     some .txs,
     some (.staAbsx 0x1234)] := by decide

/-- Source: row Ax of the grid of R66, operand bytes by R62 (little-endian). -/
theorem test_decode_row_A :
    [[0xA0, 0x9C],
     [0xA1, 0x9C],
     [0xA2, 0x9C],
     [0xA4, 0x9C],
     [0xA5, 0x9C],
     [0xA6, 0x9C],
     [0xA8],
     [0xA9, 0x9C],
     [0xAA],
     [0xAC, 0x34, 0x12],
     [0xAD, 0x34, 0x12],
     [0xAE, 0x34, 0x12]].map decodesTo =
    [some (.ldyImm 0x9C),
     some (.ldaIndx 0x9C),
     some (.ldxImm 0x9C),
     some (.ldyZp 0x9C),
     some (.ldaZp 0x9C),
     some (.ldxZp 0x9C),
     some .tay,
     some (.ldaImm 0x9C),
     some .tax,
     some (.ldyAbs 0x1234),
     some (.ldaAbs 0x1234),
     some (.ldxAbs 0x1234)] := by decide

/-- Source: row Bx of the grid of R66, operand bytes by R62 (little-endian). -/
theorem test_decode_row_B :
    [[0xB0, 0x9C],
     [0xB1, 0x9C],
     [0xB4, 0x9C],
     [0xB5, 0x9C],
     [0xB6, 0x9C],
     [0xB8],
     [0xB9, 0x34, 0x12],
     [0xBA],
     [0xBC, 0x34, 0x12],
     [0xBD, 0x34, 0x12],
     [0xBE, 0x34, 0x12]].map decodesTo =
    [some (.bcs 0x9C),
     some (.ldaIndy 0x9C),
     some (.ldyZpx 0x9C),
     some (.ldaZpx 0x9C),
     some (.ldxZpy 0x9C),
     some .clv,
     some (.ldaAbsy 0x1234),
     some .tsx,
     some (.ldyAbsx 0x1234),
     some (.ldaAbsx 0x1234),
     some (.ldxAbsy 0x1234)] := by decide

/-- Source: row Cx of the grid of R66, operand bytes by R62 (little-endian). -/
theorem test_decode_row_C :
    [[0xC0, 0x9C],
     [0xC1, 0x9C],
     [0xC4, 0x9C],
     [0xC5, 0x9C],
     [0xC6, 0x9C],
     [0xC8],
     [0xC9, 0x9C],
     [0xCA],
     [0xCC, 0x34, 0x12],
     [0xCD, 0x34, 0x12],
     [0xCE, 0x34, 0x12]].map decodesTo =
    [some (.cpyImm 0x9C),
     some (.cmpIndx 0x9C),
     some (.cpyZp 0x9C),
     some (.cmpZp 0x9C),
     some (.decZp 0x9C),
     some .iny,
     some (.cmpImm 0x9C),
     some .dex,
     some (.cpyAbs 0x1234),
     some (.cmpAbs 0x1234),
     some (.decAbs 0x1234)] := by decide

/-- Source: row Dx of the grid of R66, operand bytes by R62 (little-endian). -/
theorem test_decode_row_D :
    [[0xD0, 0x9C],
     [0xD1, 0x9C],
     [0xD5, 0x9C],
     [0xD6, 0x9C],
     [0xD8],
     [0xD9, 0x34, 0x12],
     [0xDD, 0x34, 0x12],
     [0xDE, 0x34, 0x12]].map decodesTo =
    [some (.bne 0x9C),
     some (.cmpIndy 0x9C),
     some (.cmpZpx 0x9C),
     some (.decZpx 0x9C),
     some .cld,
     some (.cmpAbsy 0x1234),
     some (.cmpAbsx 0x1234),
     some (.decAbsx 0x1234)] := by decide

/-- Source: row Ex of the grid of R66, operand bytes by R62 (little-endian). -/
theorem test_decode_row_E :
    [[0xE0, 0x9C],
     [0xE1, 0x9C],
     [0xE4, 0x9C],
     [0xE5, 0x9C],
     [0xE6, 0x9C],
     [0xE8],
     [0xE9, 0x9C],
     [0xEA],
     [0xEC, 0x34, 0x12],
     [0xED, 0x34, 0x12],
     [0xEE, 0x34, 0x12]].map decodesTo =
    [some (.cpxImm 0x9C),
     some (.sbcIndx 0x9C),
     some (.cpxZp 0x9C),
     some (.sbcZp 0x9C),
     some (.incZp 0x9C),
     some .inx,
     some (.sbcImm 0x9C),
     some .nop,
     some (.cpxAbs 0x1234),
     some (.sbcAbs 0x1234),
     some (.incAbs 0x1234)] := by decide

/-- Source: row Fx of the grid of R66, operand bytes by R62 (little-endian). -/
theorem test_decode_row_F :
    [[0xF0, 0x9C],
     [0xF1, 0x9C],
     [0xF5, 0x9C],
     [0xF6, 0x9C],
     [0xF8],
     [0xF9, 0x34, 0x12],
     [0xFD, 0x34, 0x12],
     [0xFE, 0x34, 0x12]].map decodesTo =
    [some (.beq 0x9C),
     some (.sbcIndy 0x9C),
     some (.sbcZpx 0x9C),
     some (.incZpx 0x9C),
     some .sed,
     some (.sbcAbsy 0x1234),
     some (.sbcAbsx 0x1234),
     some (.incAbsx 0x1234)] := by decide

/-- Source: R67, R63: no row, no opcode byte, operand bytes missing; bytes after the instruction are left. -/
theorem test_decode_rejects_by_name :
    decode [] = .error .noOpcode ∧ decode [0x02] = .error (.illegalOpcode 0x02) ∧ decode [0xFF, 0x00, 0x00] = .error (.illegalOpcode 0xFF) ∧
    decode [0xA9] = .error (.missingOperand 0xA9) ∧ decode [0xAD, 0x00] = .error (.missingOperand 0xAD) ∧
    decode [0xEA, 0x02] = .ok (.nop, [0x02]) := by decide

/-- Source: R61, R62, R66. -/
theorem test_encode :
    encode (.rorAbsx 0x02FF) = [0x7E, 0xFF, 0x02] ∧ encode (.bne 0xF5) = [0xD0, 0xF5] ∧ encode .txs = [0x9A] := by decide

/-- Source: spec/opcode_table.json: bit 0 is the least significant bit of the first byte; absent operand bytes are 0. -/
theorem test_decode_table_word :
    decodeTableWord 8 0xEA = some .nop ∧ decodeTableWord 16 0x02A9 = some (.ldaImm 0x02) ∧
    decodeTableWord 24 0x123420 = some (.jsr 0x1234) ∧ decodeTableWord 8 0x6D = some (.adcAbs 0x0000) ∧
    decodeTableWord 8 0x02 = none := by decide

/-- The instruction placed at the fetch runs as the first one after reset, and at the top of memory too. -/
theorem test_with_fetch_word :
    stepsTo (State.reset.withFetchWord 16 0x80A9) [0x80, 0x00, 0x00, 0xFF, 0x80] 0x0002 [] = true ∧
    stepsTo (State.reset.withFetchWord 24 0x045620) [0x00, 0x00, 0x00, 0xFD, 0x00] 0x0456 [(0x01FF, 0x00), (0x01FE, 0x03)] 1 = true ∧
    stepsTo ((State.reset.setPc 0xFFFF).withFetchWord 24 0x12344C) [0x00, 0x00, 0x00, 0xFF, 0x00] 0x1234 [] = true ∧
    stepsTo ((State.reset.setTerminated true).withFetchWord 8 0x38) [0x00, 0x00, 0x00, 0xFF, 0x01] 0x0001 [] = true := by decide

/-! ### Single steps: the vectors of sections 1 and 2 of 95_test_vectors.md -/

/-- Source: section 2.7, `DEC $10`. -/
theorem test_dec_zp :
    stepsTo (start [0xC6, 0x10] [(0x0010, 0x01)] 0x00 0x00 0x00 0xFF 0x00)
      [0x00, 0x00, 0x00, 0xFF, 0x02] 0x0202 [(0x0010, 0x00)] = true := by decide

/-- Source: section 2.7, `INC $10`. -/
theorem test_inc_zp :
    stepsTo (start [0xE6, 0x10] [(0x0010, 0x7F)] 0x00 0x00 0x00 0xFF 0x41)
      [0x00, 0x00, 0x00, 0xFF, 0xC1] 0x0202 [(0x0010, 0x80)] = true := by decide

/-- Source: section 2.3, `PHA`. -/
theorem test_pha :
    stepsTo (start [0x48] [] 0x11 0x00 0x00 0x00 0x00)
      [0x11, 0x00, 0x00, 0xFF, 0x00] 0x0201 [(0x0100, 0x11)] = true := by decide

/-- Source: section 2.3, `PLA`. -/
theorem test_pla :
    stepsTo (start [0x68] [(0x0100, 0x80)] 0x00 0x00 0x00 0xFF 0x00)
      [0x80, 0x00, 0x00, 0x00, 0x80] 0x0201 [] = true := by decide

/-- Source: section 2.5, `ADC #$01`. -/
theorem test_adc_imm_1 :
    stepsTo (start [0x69, 0x01] [] 0x7F 0x00 0x00 0xFF 0x00)
      [0x80, 0x00, 0x00, 0xFF, 0xC0] 0x0202 [] = true := by decide

/-- Source: section 2.5, `ADC #$01`. -/
theorem test_adc_imm_2 :
    stepsTo (start [0x69, 0x01] [] 0x99 0x00 0x00 0xFF 0x08)
      [0x00, 0x00, 0x00, 0xFF, 0x09] 0x0202 [] = true := by decide

/-- Source: section 2.2, `LDA ($FE,X)`. -/
theorem test_lda_indx :
    stepsTo (start [0xA1, 0xFE] [(0x0000, 0x12), (0x00FF, 0x34), (0x0100, 0x99), (0x1234, 0xA5)] 0x00 0x01 0x00 0xFF 0x00)
      [0xA5, 0x01, 0x00, 0xFF, 0x80] 0x0202 [] = true := by decide

/-- Source: section 2.2, `LDA ($FF),Y`. -/
theorem test_lda_indy :
    stepsTo (start [0xB1, 0xFF] [(0x0000, 0x02), (0x00FF, 0xFF), (0x0300, 0x44)] 0x00 0x00 0x01 0xFF 0x00)
      [0x44, 0x00, 0x01, 0xFF, 0x00] 0x0202 [] = true := by decide

/-- Source: section 2.9, `BEQ $0202`. -/
theorem test_beq :
    stepsTo (start [0xF0, 0x00] [] 0x00 0x00 0x00 0xFF 0x02)
      [0x00, 0x00, 0x00, 0xFF, 0x02] 0x0202 [] = true := by decide

/-- Source: section 2.9, `BMI $0281`. -/
theorem test_bmi :
    stepsTo (start [0x30, 0x7F] [] 0x00 0x00 0x00 0xFF 0x80)
      [0x00, 0x00, 0x00, 0xFF, 0x80] 0x0281 [] = true := by decide

/-- Source: section 2.8, `JSR $0300`. -/
theorem test_jsr :
    stepsTo (start [0x20, 0x00, 0x03] [] 0x00 0x00 0x00 0x00 0x00)
      [0x00, 0x00, 0x00, 0xFE, 0x00] 0x0300 [(0x0100, 0x02), (0x01FF, 0x03)] 1 = true := by decide

/-- Source: section 2.8, `RTS`. -/
theorem test_rts_1 :
    stepsTo (start [0x60] [(0x01FE, 0x03), (0x01FF, 0x02)] 0x00 0x00 0x00 0xFD 0x00 1)
      [0x00, 0x00, 0x00, 0xFF, 0x00] 0x0203 [] = true := by decide

/-- Source: section 2.8, `RTS`. -/
theorem test_rts_2 :
    stepsTo (start [0x60] [(0x01FE, 0x03), (0x01FF, 0x02)] 0x00 0x00 0x00 0xFD 0x00)
      [0x00, 0x00, 0x00, 0xFD, 0x00] 0x0201 [] 0 true = true := by decide

/-- Source: section 2.2, `LDA #$80`. -/
theorem test_lda_imm :
    stepsTo (start [0xA9, 0x80] [] 0x00 0x00 0x00 0xFF 0x02)
      [0x80, 0x00, 0x00, 0xFF, 0x80] 0x0202 [] = true := by decide

/-- Source: section 2.2, `LDA $F0,X`. -/
theorem test_lda_zpx :
    stepsTo (start [0xB5, 0xF0] [(0x0010, 0x42), (0x0110, 0x99)] 0x00 0x20 0x00 0xFF 0x00)
      [0x42, 0x20, 0x00, 0xFF, 0x00] 0x0202 [] = true := by decide

/-- Source: section 2.2, `LDA $12F0,X`. -/
theorem test_lda_absx :
    stepsTo (start [0xBD, 0xF0, 0x12] [(0x1310, 0x01)] 0x00 0x20 0x00 0xFF 0x00)
      [0x01, 0x20, 0x00, 0xFF, 0x00] 0x0203 [] = true := by decide

/-- Source: section 2.2, `LDA $FFFF,Y`. -/
theorem test_lda_absy :
    stepsTo (start [0xB9, 0xFF, 0xFF] [(0x0001, 0x77)] 0x00 0x00 0x02 0xFF 0x00)
      [0x77, 0x00, 0x02, 0xFF, 0x00] 0x0203 [] = true := by decide

/-- Source: section 2.2, `LDX #$00`. -/
theorem test_ldx_imm :
    stepsTo (start [0xA2, 0x00] [] 0x00 0x01 0x00 0xFF 0x00)
      [0x00, 0x00, 0x00, 0xFF, 0x02] 0x0202 [] = true := by decide

/-- Source: section 2.2, `LDX $FF,Y`. -/
theorem test_ldx_zpy :
    stepsTo (start [0xB6, 0xFF] [(0x0000, 0x80)] 0x00 0x00 0x01 0xFF 0x00)
      [0x00, 0x80, 0x01, 0xFF, 0x80] 0x0202 [] = true := by decide

/-- Source: section 2.2, `LDX $0300,Y`. -/
theorem test_ldx_absy :
    stepsTo (start [0xBE, 0x00, 0x03] [(0x0310, 0x01)] 0x00 0x00 0x10 0xFF 0x00)
      [0x00, 0x01, 0x10, 0xFF, 0x00] 0x0203 [] = true := by decide

/-- Source: section 2.2, `LDY $80,X`. -/
theorem test_ldy_zpx :
    stepsTo (start [0xB4, 0x80] [(0x0000, 0x11)] 0x00 0x80 0x00 0xFF 0x00)
      [0x00, 0x80, 0x11, 0xFF, 0x00] 0x0202 [] = true := by decide

/-- Source: section 2.2, `LDY $0300,X`. -/
theorem test_ldy_absx :
    stepsTo (start [0xBC, 0x00, 0x03] [(0x0301, 0x00)] 0x00 0x01 0x00 0xFF 0x80)
      [0x00, 0x01, 0x00, 0xFF, 0x02] 0x0203 [] = true := by decide

/-- Source: section 2.2, `STA $01`. -/
theorem test_sta_zp :
    stepsTo (start [0x85, 0x01] [] 0xAB 0x00 0x00 0xFF 0xFF)
      [0xAB, 0x00, 0x00, 0xFF, 0xFF] 0x0202 [(0x0001, 0xAB)] = true := by decide

/-- Source: section 2.2, `STA $FF,X`. -/
theorem test_sta_zpx :
    stepsTo (start [0x95, 0xFF] [] 0x01 0x02 0x00 0xFF 0x00)
      [0x01, 0x02, 0x00, 0xFF, 0x00] 0x0202 [(0x0001, 0x01)] = true := by decide

/-- Source: section 2.2, `STA $0300`. -/
theorem test_sta_abs :
    stepsTo (start [0x8D, 0x00, 0x03] [] 0x80 0x00 0x00 0xFF 0x00)
      [0x80, 0x00, 0x00, 0xFF, 0x00] 0x0203 [(0x0300, 0x80)] = true := by decide

/-- Source: section 2.2, `STA $FFFF,X`. -/
theorem test_sta_absx :
    stepsTo (start [0x9D, 0xFF, 0xFF] [] 0x12 0x01 0x00 0xFF 0x00)
      [0x12, 0x01, 0x00, 0xFF, 0x00] 0x0203 [(0x0000, 0x12)] = true := by decide

/-- Source: section 2.2, `STA $0100,Y`. -/
theorem test_sta_absy :
    stepsTo (start [0x99, 0x00, 0x01] [] 0x34 0x00 0xFF 0xFF 0x00)
      [0x34, 0x00, 0xFF, 0xFF, 0x00] 0x0203 [(0x01FF, 0x34)] = true := by decide

/-- Source: section 2.2, `STA ($20,X)`. -/
theorem test_sta_indx :
    stepsTo (start [0x81, 0x20] [(0x001F, 0x00), (0x0020, 0x30)] 0x56 0xFF 0x00 0xFF 0x00)
      [0x56, 0xFF, 0x00, 0xFF, 0x00] 0x0202 [(0x3000, 0x56)] = true := by decide

/-- Source: section 2.2, `STA ($20),Y`. -/
theorem test_sta_indy :
    stepsTo (start [0x91, 0x20] [(0x0020, 0x01), (0x0021, 0xFF)] 0x78 0x00 0xFF 0xFF 0x00)
      [0x78, 0x00, 0xFF, 0xFF, 0x00] 0x0202 [(0x0000, 0x78)] = true := by decide

/-- Source: section 2.2, `STX $10`. -/
theorem test_stx_zp :
    stepsTo (start [0x86, 0x10] [] 0x00 0x99 0x00 0xFF 0x00)
      [0x00, 0x99, 0x00, 0xFF, 0x00] 0x0202 [(0x0010, 0x99)] = true := by decide

/-- Source: section 2.2, `STX $10,Y`. -/
theorem test_stx_zpy :
    stepsTo (start [0x96, 0x10] [] 0x00 0x99 0xF8 0xFF 0x00)
      [0x00, 0x99, 0xF8, 0xFF, 0x00] 0x0202 [(0x0008, 0x99)] = true := by decide

/-- Source: section 2.2, `STY $10`. -/
theorem test_sty_zp :
    stepsTo (start [0x84, 0x10] [] 0x00 0x00 0x00 0xFF 0x80)
      [0x00, 0x00, 0x00, 0xFF, 0x80] 0x0202 [(0x0010, 0x00)] = true := by decide

/-- Source: section 2.2, `STY $10,X`. -/
theorem test_sty_zpx :
    stepsTo (start [0x94, 0x10] [] 0x00 0x01 0x22 0xFF 0x00)
      [0x00, 0x01, 0x22, 0xFF, 0x00] 0x0202 [(0x0011, 0x22)] = true := by decide

/-- Source: section 2.2, `TAX`. -/
theorem test_tax :
    stepsTo (start [0xAA] [] 0x80 0x01 0x00 0xFF 0x00)
      [0x80, 0x80, 0x00, 0xFF, 0x80] 0x0201 [] = true := by decide

/-- Source: section 2.2, `TAY`. -/
theorem test_tay :
    stepsTo (start [0xA8] [] 0x00 0x00 0x01 0xFF 0x00)
      [0x00, 0x00, 0x00, 0xFF, 0x02] 0x0201 [] = true := by decide

/-- Source: section 2.2, `TSX`. -/
theorem test_tsx :
    stepsTo (start [0xBA] [] 0x00 0x00 0x00 0xFD 0x00)
      [0x00, 0xFD, 0x00, 0xFD, 0x80] 0x0201 [] = true := by decide

/-- Source: section 2.2, `TXA`. -/
theorem test_txa :
    stepsTo (start [0x8A] [] 0x00 0x7F 0x00 0xFF 0x82)
      [0x7F, 0x7F, 0x00, 0xFF, 0x00] 0x0201 [] = true := by decide

/-- Source: section 2.2, `TXS`. -/
theorem test_txs :
    stepsTo (start [0x9A] [] 0x00 0x00 0x00 0xFF 0x00)
      [0x00, 0x00, 0x00, 0x00, 0x00] 0x0201 [] = true := by decide

/-- Source: section 2.2, `TYA`. -/
theorem test_tya :
    stepsTo (start [0x98] [] 0x00 0x00 0xFF 0xFF 0x00)
      [0xFF, 0x00, 0xFF, 0xFF, 0x80] 0x0201 [] = true := by decide

/-- Source: section 2.3, `PHP`. -/
theorem test_php :
    stepsTo (start [0x08] [] 0x00 0x00 0x00 0xFF 0x20)
      [0x00, 0x00, 0x00, 0xFE, 0x20] 0x0201 [(0x01FF, 0x20)] = true := by decide

/-- Source: section 2.3, `PLP`. -/
theorem test_plp :
    stepsTo (start [0x28] [(0x01FF, 0x30)] 0x00 0x00 0x00 0xFE 0x00)
      [0x00, 0x00, 0x00, 0xFF, 0x30] 0x0201 [] = true := by decide

/-- Source: section 2.4, `ASL A`. -/
theorem test_asl_acc :
    stepsTo (start [0x0A] [] 0x41 0x00 0x00 0xFF 0x01)
      [0x82, 0x00, 0x00, 0xFF, 0x80] 0x0201 [] = true := by decide

/-- Source: section 2.4, `ASL $0300,X`. -/
theorem test_asl_absx :
    stepsTo (start [0x1E, 0x00, 0x03] [(0x0301, 0x40)] 0x00 0x01 0x00 0xFF 0x00)
      [0x00, 0x01, 0x00, 0xFF, 0x80] 0x0203 [(0x0301, 0x80)] = true := by decide

/-- Source: section 2.4, `LSR A`. -/
theorem test_lsr_acc :
    stepsTo (start [0x4A] [] 0xFF 0x00 0x00 0xFF 0x80)
      [0x7F, 0x00, 0x00, 0xFF, 0x01] 0x0201 [] = true := by decide

/-- Source: section 2.4, `LSR $10`. -/
theorem test_lsr_zp :
    stepsTo (start [0x46, 0x10] [(0x0010, 0x02)] 0x00 0x00 0x00 0xFF 0x01)
      [0x00, 0x00, 0x00, 0xFF, 0x00] 0x0202 [(0x0010, 0x01)] = true := by decide

/-- Source: section 2.4, `LSR $FF,X`. -/
theorem test_lsr_zpx :
    stepsTo (start [0x56, 0xFF] [(0x0000, 0x81)] 0x00 0x01 0x00 0xFF 0x00)
      [0x00, 0x01, 0x00, 0xFF, 0x01] 0x0202 [(0x0000, 0x40)] = true := by decide

/-- Source: section 2.4, `ROL A`. -/
theorem test_rol_acc :
    stepsTo (start [0x2A] [] 0x40 0x00 0x00 0xFF 0x01)
      [0x81, 0x00, 0x00, 0xFF, 0x80] 0x0201 [] = true := by decide

/-- Source: section 2.4, `ROL $0300`. -/
theorem test_rol_abs :
    stepsTo (start [0x2E, 0x00, 0x03] [(0x0300, 0xFF)] 0x00 0x00 0x00 0xFF 0x00)
      [0x00, 0x00, 0x00, 0xFF, 0x81] 0x0203 [(0x0300, 0xFE)] = true := by decide

/-- Source: section 2.4, `ROR A`. -/
theorem test_ror_acc :
    stepsTo (start [0x6A] [] 0x00 0x00 0x00 0xFF 0x01)
      [0x80, 0x00, 0x00, 0xFF, 0x80] 0x0201 [] = true := by decide

/-- Source: section 2.4, `ROR $10`. -/
theorem test_ror_zp :
    stepsTo (start [0x66, 0x10] [(0x0010, 0x03)] 0x00 0x00 0x00 0xFF 0x01)
      [0x00, 0x00, 0x00, 0xFF, 0x81] 0x0202 [(0x0010, 0x81)] = true := by decide

/-- Source: section 2.4, `ROR $02FF,X`. -/
theorem test_ror_absx :
    stepsTo (start [0x7E, 0xFF, 0x02] [(0x0300, 0xFE)] 0x00 0x01 0x00 0xFF 0x00)
      [0x00, 0x01, 0x00, 0xFF, 0x00] 0x0203 [(0x0300, 0x7F)] = true := by decide

/-- Source: section 2.5, `ADC ($10),Y`. -/
theorem test_adc_indy :
    stepsTo (start [0x71, 0x10] [(0x0010, 0xFF), (0x0011, 0x02), (0x0300, 0x05)] 0x10 0x00 0x01 0xFF 0x00)
      [0x15, 0x00, 0x01, 0xFF, 0x00] 0x0202 [] = true := by decide

/-- Source: section 2.5, `SBC #$01`. -/
theorem test_sbc_imm_1 :
    stepsTo (start [0xE9, 0x01] [] 0x80 0x00 0x00 0xFF 0x01)
      [0x7F, 0x00, 0x00, 0xFF, 0x41] 0x0202 [] = true := by decide

/-- Source: section 2.5, `SBC #$00`. -/
theorem test_sbc_imm_2 :
    stepsTo (start [0xE9, 0x00] [] 0x00 0x00 0x00 0xFF 0x08)
      [0x99, 0x00, 0x00, 0xFF, 0x08] 0x0202 [] = true := by decide

/-- Source: section 2.5, `SBC $0300`. -/
theorem test_sbc_abs :
    stepsTo (start [0xED, 0x00, 0x03] [(0x0300, 0x20)] 0x10 0x00 0x00 0xFF 0x01)
      [0xF0, 0x00, 0x00, 0xFF, 0x80] 0x0203 [] = true := by decide

/-- Source: section 2.6, `AND #$80`. -/
theorem test_and_imm :
    stepsTo (start [0x29, 0x80] [] 0xFF 0x00 0x00 0xFF 0x02)
      [0x80, 0x00, 0x00, 0xFF, 0x80] 0x0202 [] = true := by decide

/-- Source: section 2.6, `AND ($10),Y`. -/
theorem test_and_indy :
    stepsTo (start [0x31, 0x10] [(0x0010, 0xFE), (0x0011, 0x02), (0x0300, 0x01)] 0xFF 0x00 0x02 0xFF 0x00)
      [0x01, 0x00, 0x02, 0xFF, 0x00] 0x0202 [] = true := by decide

/-- Source: section 2.6, `EOR #$0F`. -/
theorem test_eor_imm :
    stepsTo (start [0x49, 0x0F] [] 0x0A 0x00 0x00 0xFF 0x41)
      [0x05, 0x00, 0x00, 0xFF, 0x41] 0x0202 [] = true := by decide

/-- Source: section 2.6, `ORA #$80`. -/
theorem test_ora_imm :
    stepsTo (start [0x09, 0x80] [] 0x01 0x00 0x00 0xFF 0x00)
      [0x81, 0x00, 0x00, 0xFF, 0x80] 0x0202 [] = true := by decide

/-- Source: section 2.6, `BIT $10`. -/
theorem test_bit_zp :
    stepsTo (start [0x24, 0x10] [(0x0010, 0x3F)] 0xFF 0x00 0x00 0xFF 0xC2)
      [0xFF, 0x00, 0x00, 0xFF, 0x00] 0x0202 [] = true := by decide

/-- Source: section 2.7, `CMP #$10`. -/
theorem test_cmp_imm :
    stepsTo (start [0xC9, 0x10] [] 0x0F 0x00 0x00 0xFF 0x48)
      [0x0F, 0x00, 0x00, 0xFF, 0xC8] 0x0202 [] = true := by decide

/-- Source: section 2.7, `CMP $10,X`. -/
theorem test_cmp_zpx :
    stepsTo (start [0xD5, 0x10] [(0x0011, 0x05)] 0x05 0x01 0x00 0xFF 0x00)
      [0x05, 0x01, 0x00, 0xFF, 0x03] 0x0202 [] = true := by decide

/-- Source: section 2.7, `CPX #$05`. -/
theorem test_cpx_imm :
    stepsTo (start [0xE0, 0x05] [] 0x00 0x05 0x00 0xFF 0x00)
      [0x00, 0x05, 0x00, 0xFF, 0x03] 0x0202 [] = true := by decide

/-- Source: section 2.7, `CPX $0300`. -/
theorem test_cpx_abs :
    stepsTo (start [0xEC, 0x00, 0x03] [(0x0300, 0x7F)] 0x00 0x80 0x00 0xFF 0x00)
      [0x00, 0x80, 0x00, 0xFF, 0x01] 0x0203 [] = true := by decide

/-- Source: section 2.7, `CPY #$0A`. -/
theorem test_cpy_imm :
    stepsTo (start [0xC0, 0x0A] [] 0x00 0x00 0xFF 0xFF 0x00)
      [0x00, 0x00, 0xFF, 0xFF, 0x81] 0x0202 [] = true := by decide

/-- Source: section 2.7, `INC $02FF,X`. -/
theorem test_inc_absx :
    stepsTo (start [0xFE, 0xFF, 0x02] [(0x0300, 0xFF)] 0x00 0x01 0x00 0xFF 0x01)
      [0x00, 0x01, 0x00, 0xFF, 0x03] 0x0203 [(0x0300, 0x00)] = true := by decide

/-- Source: section 2.7, `DEC $10,X`. -/
theorem test_dec_zpx :
    stepsTo (start [0xD6, 0x10] [(0x0000, 0x80)] 0x00 0xF0 0x00 0xFF 0x40)
      [0x00, 0xF0, 0x00, 0xFF, 0x40] 0x0202 [(0x0000, 0x7F)] = true := by decide

/-- Source: section 2.7, `INX`. -/
theorem test_inx :
    stepsTo (start [0xE8] [] 0x00 0xFF 0x00 0xFF 0x01)
      [0x00, 0x00, 0x00, 0xFF, 0x03] 0x0201 [] = true := by decide

/-- Source: section 2.7, `INY`. -/
theorem test_iny :
    stepsTo (start [0xC8] [] 0x00 0x00 0x7F 0xFF 0x40)
      [0x00, 0x00, 0x80, 0xFF, 0xC0] 0x0201 [] = true := by decide

/-- Source: section 2.7, `DEX`. -/
theorem test_dex :
    stepsTo (start [0xCA] [] 0x00 0x01 0x00 0xFF 0x81)
      [0x00, 0x00, 0x00, 0xFF, 0x03] 0x0201 [] = true := by decide

/-- Source: section 2.7, `DEY`. -/
theorem test_dey :
    stepsTo (start [0x88] [] 0x00 0x00 0x80 0xFF 0x40)
      [0x00, 0x00, 0x7F, 0xFF, 0x40] 0x0201 [] = true := by decide

/-- Source: section 2.8, `JMP $0200`. -/
theorem test_jmp_abs :
    stepsTo (start [0x4C, 0x00, 0x02] [] 0x00 0x00 0x00 0xFF 0x00)
      [0x00, 0x00, 0x00, 0xFF, 0x00] 0x0200 [] = true := by decide

/-- Source: section 2.8, `JMP ($FFFF)`. -/
theorem test_jmp_ind :
    stepsTo (start [0x6C, 0xFF, 0xFF] [(0x0000, 0x22), (0xFFFF, 0x11)] 0x00 0x00 0x00 0xFF 0x00)
      [0x00, 0x00, 0x00, 0xFF, 0x00] 0x2211 [] = true := by decide

/-- Source: section 2.8, `BRK`. -/
theorem test_brk :
    stepsTo (start [0x00] [] 0x00 0x00 0x00 0x80 0xFF)
      [0x00, 0x00, 0x00, 0x80, 0xFF] 0x0201 [] = true := by decide

/-- Source: section 2.8, `RTI`. -/
theorem test_rti :
    stepsTo (start [0x40] [(0x01FD, 0xFF), (0x01FE, 0x34), (0x01FF, 0x12)] 0x00 0x00 0x00 0xFC 0x01)
      [0x00, 0x00, 0x00, 0xFC, 0x01] 0x0201 [] = true := by decide

/-- Source: section 2.9, `BCC $0207`. -/
theorem test_bcc :
    stepsTo (start [0x90, 0x05] [] 0x00 0x00 0x00 0xFF 0x01)
      [0x00, 0x00, 0x00, 0xFF, 0x01] 0x0202 [] = true := by decide

/-- Source: section 2.9, `BCS $0200`. -/
theorem test_bcs :
    stepsTo (start [0xB0, 0xFE] [] 0x00 0x00 0x00 0xFF 0x00)
      [0x00, 0x00, 0x00, 0xFF, 0x00] 0x0202 [] = true := by decide

/-- Source: section 2.9, `BNE $FF87`. -/
theorem test_bne_1 :
    stepsTo (start [0xD0, 0x80] [] 0x00 0x00 0x00 0xFF 0x00 0 0x0005)
      [0x00, 0x00, 0x00, 0xFF, 0x00] 0xFF87 [] = true := by decide

/-- Source: section 2.9, `BNE $01F7`. -/
theorem test_bne_2 :
    stepsTo (start [0xD0, 0xF5] [] 0x00 0x00 0x00 0xFF 0x02)
      [0x00, 0x00, 0x00, 0xFF, 0x02] 0x0202 [] = true := by decide

/-- Source: section 2.9, `BPL $0182`. -/
theorem test_bpl :
    stepsTo (start [0x10, 0x80] [] 0x00 0x00 0x00 0xFF 0x80)
      [0x00, 0x00, 0x00, 0xFF, 0x80] 0x0202 [] = true := by decide

/-- Source: section 2.9, `BVC $0212`. -/
theorem test_bvc :
    stepsTo (start [0x50, 0x10] [] 0x00 0x00 0x00 0xFF 0x40)
      [0x00, 0x00, 0x00, 0xFF, 0x40] 0x0202 [] = true := by decide

/-- Source: section 2.9, `BVS $0212`. -/
theorem test_bvs :
    stepsTo (start [0x70, 0x10] [] 0x00 0x00 0x00 0xFF 0xBF)
      [0x00, 0x00, 0x00, 0xFF, 0xBF] 0x0202 [] = true := by decide

/-- Source: section 2.10, `CLC`. -/
theorem test_clc :
    stepsTo (start [0x18] [] 0x00 0x00 0x00 0xFF 0xFF)
      [0x00, 0x00, 0x00, 0xFF, 0xFE] 0x0201 [] = true := by decide

/-- Source: section 2.10, `SEC`. -/
theorem test_sec :
    stepsTo (start [0x38] [] 0x00 0x00 0x00 0xFF 0x00)
      [0x00, 0x00, 0x00, 0xFF, 0x01] 0x0201 [] = true := by decide

/-- Source: section 2.10, `CLD`. -/
theorem test_cld :
    stepsTo (start [0xD8] [] 0x00 0x00 0x00 0xFF 0xFF)
      [0x00, 0x00, 0x00, 0xFF, 0xF7] 0x0201 [] = true := by decide

/-- Source: section 2.10, `SED`. -/
theorem test_sed :
    stepsTo (start [0xF8] [] 0x00 0x00 0x00 0xFF 0x00)
      [0x00, 0x00, 0x00, 0xFF, 0x08] 0x0201 [] = true := by decide

/-- Source: section 2.10, `CLI`. -/
theorem test_cli :
    stepsTo (start [0x58] [] 0x00 0x00 0x00 0xFF 0xFF)
      [0x00, 0x00, 0x00, 0xFF, 0xFB] 0x0201 [] = true := by decide

/-- Source: section 2.10, `SEI`. -/
theorem test_sei :
    stepsTo (start [0x78] [] 0x00 0x00 0x00 0xFF 0x00)
      [0x00, 0x00, 0x00, 0xFF, 0x04] 0x0201 [] = true := by decide

/-- Source: section 2.10, `CLV`. -/
theorem test_clv :
    stepsTo (start [0xB8] [] 0x00 0x00 0x00 0xFF 0x00)
      [0x00, 0x00, 0x00, 0xFF, 0x00] 0x0201 [] = true := by decide

/-- Source: section 2.10, `NOP`. -/
theorem test_nop :
    stepsTo (start [0xEA] [] 0x01 0x02 0x03 0x04 0xA5)
      [0x01, 0x02, 0x03, 0x04, 0xA5] 0x0201 [] = true := by decide

/-- Source: R43, R45, R82: the program writes its own next instruction, and the next fetch sees it. -/
theorem test_store_into_code :
    stepsTo (nextOr (step (start [0x8D, 0x03, 0x02, 0x00] [] 0xE8 0x00 0x00 0xFF 0x00)))
      [0xE8, 0x01, 0x00, 0xFF, 0x00] 0x0204 [] = true := by decide

/-- Source: R168: with a nibble above 9 the result byte and the Carry are the open value, whatever it is; the rest is stale. -/
theorem test_adc_imm_invalid_bcd :
    exec (.adcImm 0x0A) (start [] [] 0x12 0 0 0xFF 0xC9) =
      .next (decimalToA (Config.bcdInvalid .adc 0x12 0x0A true) (start [] [] 0x12 0 0 0xFF 0xC9)) := rfl

/-- Source: R168. -/
theorem test_sbc_imm_invalid_bcd :
    exec (.sbcImm 0x01) (start [] [] 0xA0 0 0 0xFF 0x08) =
      .next (decimalToA (Config.bcdInvalid .sbc 0xA0 0x01 false) (start [] [] 0xA0 0 0 0xFF 0x08)) := rfl

/-! ### Faults: section 2.11 -/

/-- Source: section 2.11, the illegal opcodes. -/
theorem test_fault_illegal :
    faultsWith (start [0x02] [] 0 0 0 0xFF 0) (.illegalOpcode 0x02 0x0200) 0x0201 = true ∧
    faultsWith (start [0xFF] [] 0x12 0 0 0xFF 0xC3) (.illegalOpcode 0xFF 0x0200) 0x0201 = true ∧
    faultsWith (start [0x80, 0x00] [] 0 0 0 0xFF 0) (.illegalOpcode 0x80 0x0200) 0x0201 = true := by decide

/-- Source: section 2.11, the truncated instructions. -/
theorem test_fault_truncated :
    faultsWith (start [0xA9] [] 0 0 0 0xFF 0) (.endOfDataFetch 0x0201) 0x0201 = true ∧
    faultsWith (start [0xAD, 0x00] [] 0 0 0 0xFF 0) (.endOfDataFetch 0x0202) 0x0202 = true ∧
    faultsWith (start [0xAD] [] 0 0 0 0xFF 0) (.endOfDataFetch 0x0201) 0x0201 = true ∧
    faultsWith (start [0x20, 0x00] [] 0 0 0 0xFF 0) (.endOfDataFetch 0x0202) 0x0202 = true ∧
    faultsWith (start [0xD0] [] 0 0 0 0xFF 0x02) (.endOfDataFetch 0x0201) 0x0201 = true ∧
    faultsWith (start [0x6C, 0x00] [] 0 0 0 0xFF 0) (.endOfDataFetch 0x0202) 0x0202 = true := by decide

/-- Source: section 2.11, the further fault vectors: an empty window, the end of the data, the order of the checks. -/
theorem test_fault_end_of_data :
    faultsWith State.reset (.endOfDataFetch 0x0000) 0x0000 = true ∧
    faultsWith (nextOr (step (start [0xEA] [] 0 0 0 0xFF 0))) (.endOfDataFetch 0x0201) 0x0201 = true ∧
    faultsWith (nextOr (step (start [0x4C, 0x00, 0x03] [] 0 0 0 0xFF 0))) (.endOfDataFetch 0x0300) 0x0300 = true ∧
    faultsWith (setState { pc := some 0x0201 } (start [0x02] [] 0 0 0 0xFF 0)) (.endOfDataFetch 0x0201) 0x0201 = true := by decide

/-! ### Host operations: section 2.12 -/

/-- Source: section 2.12, the bound of a load, an empty load. -/
theorem test_load_bounds :
    (loadExecutable [1, 2, 3] 0xFFFC State.reset).1 = true ∧ (loadExecutable [1, 2, 3] 0xFFFC State.reset).2.codeEnd = 0xFFFF ∧
    loadExecutable [1, 2, 3, 4] 0xFFFC State.reset = (false, State.reset) ∧
    loadExecutable [] 0x1234 State.reset = (true, { State.reset with codeStart := 0x1234, codeEnd := 0x1234, pc := 0x1234 }) ∧
    loadData [0xAA] 0xFFFF State.reset false = (false, State.reset) ∧
    loadData [0xAA] 0xFFFE State.reset false = (true, { State.reset with mem := [(0xFFFE, 0xAA)] }) := by decide

/-- Source: section 2.12: clearing first erases the program; the window and `PC` stay. -/
theorem test_load_data_clears :
    loadData [1, 2] 0x0010 (start [0xEA] [] 0 0 0 0xFF 0) =
      (true, { start [0xEA] [] 0 0 0 0xFF 0 with mem := [(0x0010, 1), (0x0011, 2)] }) := by decide

/-- Source: section 2.12: the registers of the old run survive a new load. -/
theorem test_load_after_a_run :
    (loadExecutable [0xEA] 0x0200 { start [] [] 1 2 3 4 5 with jsrcnt := 2, terminated := true }).2 = start [0xEA] [] 1 2 3 4 5 := by
  decide

/-- Source: section 2.12. -/
theorem test_set_state :
    getState (setState { a := some 0x12 } { State.reset with x := 1, y := 2, pc := 0x0200, p := 0x30 }) =
      { a := 0x12, x := 1, y := 2, pc := 0x0200, flags := 0x30 } ∧
    (setState { flags := some 0xFF } State.reset).p = 0xFF ∧ setState {} (start [] [] 1 2 3 4 5) = start [] [] 1 2 3 4 5 := by decide

/-- Source: section 2.12. -/
theorem test_dump :
    dumpMemory 0xFFFE 2 { State.reset with mem := [(0xFFFE, 0xAA), (0xFFFF, 0xBB)] } = .ok [0xAA, 0xBB] ∧
    dumpMemory 0xFFFF 2 State.reset = .error (.dumpOutOfRange 0xFFFF 2) := ⟨rfl, rfl⟩

/-- Source: section 1.9. -/
theorem test_reset :
    getState (hostReset (start [0xEA] [(0, 1)] 1 2 3 4 5)) = { a := 0, x := 0, y := 0, pc := 0, flags := 0 } ∧
    getS (hostReset (start [0xEA] [(0, 1)] 1 2 3 4 5)) = 0xFF ∧
    dumpMemory 0x0000 2 (hostReset (start [0xEA] [(0, 1)] 1 2 3 4 5)) = .ok [0, 0] := ⟨rfl, rfl, rfl⟩

/-- Source: R300, R301, sections 2.11 and 2.12: a run that is over returns at once; a jump past the window ends it; an RTS ends it. -/
theorem test_run :
    run 0 (State.reset.setTerminated true) = .ended (State.reset.setTerminated true) ∧
    run 2 (start [0x4C, 0x00, 0x03] [] 0 0 0 0xFF 0) = .ended ((start [0x4C, 0x00, 0x03] [] 0 0 0 0xFF 0).setPc 0x0300) ∧
    run 1 (start [0x60, 0xEA] [] 0 0 0 0xFF 0) =
      .ended { start [0x60, 0xEA] [] 0 0 0 0xFF 0 with pc := 0x0201, terminated := true } := by decide

/-- Source: R58 with R95, R140, R202: the accesses of a step in order. -/
theorem test_transactions :
    stepTransactions (start [0xA1, 0x10] [(0x0014, 0x00), (0x0015, 0x04), (0x0400, 0x5A)] 0 4 0 0xFF 0) =
      [.read 0x0200 0xA1, .read 0x0201 0x10, .read 0x0014 0x00, .read 0x0015 0x04, .read 0x0400 0x5A] ∧
    stepTransactions (start [0x06, 0x10] [(0x0010, 0x41)] 0 0 0 0xFF 0) =
      [.read 0x0200 0x06, .read 0x0201 0x10, .read 0x0010 0x41, .write 0x0010 0x82] ∧
    stepTransactions (start [0x20, 0x56, 0x04] [] 0 0 0 0xFF 0) =
      [.read 0x0200 0x20, .read 0x0201 0x56, .read 0x0202 0x04, .write 0x01FF 0x02, .write 0x01FE 0x03] := by decide

/-- Source: R81, R263 with the model's choice of assumption log 9: no step, no access; a truncated instruction, only its stream reads. -/
theorem test_transactions_without_an_instruction :
    stepTransactions ((start [0xEA] [] 0 0 0 0xFF 0).setTerminated true) = [] ∧
    stepTransactions (start [0xAD, 0x10] [] 0 0 0 0xFF 0) = [.read 0x0200 0xAD, .read 0x0201 0x10] := by decide

/-! ### Witnesses: the hypotheses of every obligation that has some are met together -/

/-- A state with something in every field, in canonical form. -/
def busy : State :=
  { a := 0x58, x := 0x01, y := 0xFF, sp := 0x00, pc := 0x0202, p := 0x09, mem := [(0x0010, 0xFF), (0x0100, 0x77), (0x0200, 0xA9)],
    jsrcnt := 2, terminated := false, codeStart := 0x0200, codeEnd := 0x0203 }

theorem witness_StepKeepsTheInvariant : ∃ s t : State, s.Inv ∧ step s = .next t := ⟨busy, _, by decide, rfl⟩

theorem witness_HostOperationsKeepTheInvariant : busy.Inv := by decide

theorem witness_EncodeOfDecodeIsTheBytes :
    (∃ bytes rest i, decode bytes = .ok (i, rest)) ∧ (0xA9 : Byte) ∉ illegalOpcodes ∧ (0x00 : Byte) ∉ illegalOpcodes :=
  ⟨⟨[0xAD, 0x34, 0x12], _, _, rfl⟩, by decide, by decide⟩

theorem witness_ModeFixesTheLength : (encode (.bne 0x00)).head? = (encode (.bne 0xFF)).head? := rfl

theorem witness_LegalPairsAreTheOpcodeRows : opcodeInfo 0xFE = some (.inc, .absx) := by decide

theorem witness_IllegalOpcodesFault :
    ∃ s : State, s.terminated = false ∧ s.pc.toNat < s.codeEnd.toNat ∧ s.read s.pc ∈ illegalOpcodes :=
  ⟨start [0xFF] [] 0 0 0 0xFF 0, by decide⟩

/-- The instruction's last byte is the last byte of the window. -/
theorem witness_StepRunsTheDecodedInstruction :
    ∃ (s : State) (i : Instr) (rest : List Byte), s.terminated = false ∧ decode (s.bytesAt s.pc 3) = .ok (i, rest) ∧
      s.pc.toNat + i.length ≤ s.codeEnd.toNat :=
  ⟨start [0xA9, 0x01] [] 0 0 0 0xFF 0, _, _, rfl, rfl, by decide⟩

/-- Each clause, on both sides of the window's end, and at the highest address a fetch can have. -/
theorem witness_FetchByteReadsAndAdvances :
    (State.reset.codeEnd.toNat ≤ State.reset.pc.toNat) ∧
    (start [1, 2, 3] [] 0 0 0 0 0 0 0xFFFC).pc.toNat < (start [1, 2, 3] [] 0 0 0 0 0 0 0xFFFC).codeEnd.toNat ∧
    ((start [1] [] 0 0 0 0 0).setPc 0x0200).pc.toNat < (start [1] [] 0 0 0 0 0).codeEnd.toNat := by decide

/-- Each clause: past the end, an illegal opcode, one byte missing. -/
theorem witness_FaultsComeInPriorityOrder :
    (State.reset.terminated = false ∧ State.reset.codeEnd.toNat ≤ State.reset.pc.toNat) ∧
    (∃ s : State, s.terminated = false ∧ s.pc.toNat < s.codeEnd.toNat ∧ decodeOpcode (s.read s.pc) = none) ∧
    (∃ (s : State) (i : Instr) (rest : List Byte), s.terminated = false ∧ s.pc.toNat < s.codeEnd.toNat ∧
      decode (s.bytesAt s.pc 3) = .ok (i, rest) ∧ s.codeEnd.toNat < s.pc.toNat + (encode i).length) ∧
    (State.reset.setTerminated true).terminated = true :=
  ⟨by decide, ⟨start [0x02] [] 0 0 0 0 0, rfl, by decide, rfl⟩,
    ⟨start [0xAD, 0x00] [] 0 0 0 0 0, _, _, rfl, by decide, rfl, by decide⟩, rfl⟩

theorem witness_TerminatedMachineTakesNoStep : (State.reset.setTerminated true).terminated = true := rfl

/-- A step that faults in each of the two ways. -/
theorem witness_OnlyTheFetchFaults :
    step State.reset = .fault (.endOfDataFetch 0x0000) ∧ step (start [0x02] [] 0 0 0 0 0) = .fault (.illegalOpcode 0x02 0x0200) :=
  ⟨rfl, rfl⟩

theorem witness_MemWriteSetsOneCell :
    ∃ (s : State) (addr other : Addr), other ≠ addr ∧ s.pc = addr ∧ s.pc.toNat < s.codeEnd.toNat :=
  ⟨busy, 0x0202, 0xFFFF, by decide⟩

theorem witness_PopIncrementsThenReads : ∃ addr : Addr, addr.toNat = 0x0100 + ((0xFF : Byte).toNat + 1) % 256 := ⟨0x0100, by decide⟩

theorem witness_SetZNWritesTwoBits : ∃ k : Nat, k ≠ 1 ∧ k ≠ 7 := ⟨5, by decide⟩

theorem witness_ZeroPageModesStayInPageZero :
    (Instr.ldaZp 0xFF).operand = .mem (.zp 0xFF) ∧ (Instr.rorZpx 0xFF).operand = .mem (.zpx 0xFF) ∧
    (Instr.stxZpy 0xFF).operand = .mem (.zpy 0xFF) := ⟨rfl, rfl, rfl⟩

theorem witness_AbsoluteModesAreSixteenBit :
    (Instr.jsr 0xFFFF).operand = .mem (.abs 0xFFFF) ∧ (Instr.incAbsx 0xFFFF).operand = .mem (.absx 0xFFFF) ∧
    (Instr.ldxAbsy 0xFFFF).operand = .mem (.absy 0xFFFF) := ⟨rfl, rfl, rfl⟩

/-- At the top of the address space and at the end of a page. -/
theorem witness_IndirectReadsBothBytesAcrossPages :
    ((Instr.jmpInd 0xFFFF).operand = .ind 0xFFFF ∧ (0x0000 : Addr).toNat = ((0xFFFF : Addr).toNat + 1) % 65536) ∧
    ((Instr.jmpInd 0x12FF).operand = .ind 0x12FF ∧ (0x1300 : Addr).toNat = ((0x12FF : Addr).toNat + 1) % 65536) := by decide

/-- The pointer wraps within the page. -/
theorem witness_IndexedIndirectPointerInPageZero :
    (Instr.adcIndx 0xFE).operand = .mem (.indx 0xFE) ∧ (0x00FF : Addr).toNat = ((0xFE : Byte).toNat + busy.x.toNat) % 256 ∧
    (0x0000 : Addr).toNat = ((0x00FF : Addr).toNat + 1) % 256 := by decide

theorem witness_IndirectIndexedAddsYToThePointer :
    (Instr.staIndy 0xFF).operand = .mem (.indy 0xFF) ∧ (0x00FF : Addr).toNat = (0xFF : Byte).toNat ∧
    (0x0000 : Addr).toNat = ((0xFF : Byte).toNat + 1) % 256 := by decide

theorem witness_RelativeTargetIsSignedAndWraps : (Instr.bvs 0x7F).operand = .rel 0x7F ∧ (Instr.bcc 0x80).operand = .rel 0x80 := ⟨rfl, rfl⟩

theorem witness_OperandlessAndImmediateModes :
    Instr.tya.operand = .imp ∧ Instr.rorAcc.operand = .acc ∧ (Instr.sbcImm 0xFF).operand = .imm 0xFF := ⟨rfl, rfl, rfl⟩

/-- A pair that shares a cell in page zero, the cell chosen by X, and a pair at the top of memory. -/
theorem witness_NineRotatesRestore :
    ((Instr.rolZpx 0xFF).mnemonic = .rol ∧ (Instr.rolZpx 0xFF).operand = .mem (.zpx 0xFF) ∧
      (Instr.rorZpx 0xFF).mnemonic = .ror ∧ (Instr.rorZpx 0xFF).operand = .mem (.zpx 0xFF)) ∧
    ((Instr.rolAbs 0xFFFF).mnemonic = .rol ∧ (Instr.rolAbs 0xFFFF).operand = .mem (.abs 0xFFFF) ∧
      (Instr.rorAbs 0xFFFF).mnemonic = .ror ∧ (Instr.rorAbs 0xFFFF).operand = .mem (.abs 0xFFFF)) :=
  ⟨⟨rfl, rfl, rfl, rfl⟩, ⟨rfl, rfl, rfl, rfl⟩⟩

theorem witness_PhpThenPlpRestoresPAndS :
    (∃ s t u : State, exec .php s = .next t ∧ exec .plp t = .next u) ∧ (∃ s t u : State, exec .pha s = .next t ∧ exec .pla t = .next u) :=
  ⟨⟨busy, _, _, rfl, rfl⟩, ⟨busy, _, _, rfl, rfl⟩⟩

/-- The cases of `AdcPost` and `SbcPost`: binary; decimal on valid operands; decimal on operands that are not. -/
theorem witness_AdcAddsWithCarry :
    State.reset.flag .d = false ∧ busy.flag .d = true ∧ (ValidBcd busy.a ∧ ValidBcd 0x99) ∧ ¬(ValidBcd busy.a ∧ ValidBcd 0x9A) := by
  unfold ValidBcd; decide

theorem witness_SbcSubtractsWithBorrow :
    State.reset.flag .d = false ∧ busy.flag .d = true ∧ (ValidBcd busy.a ∧ ValidBcd 0x00) ∧ ¬(ValidBcd busy.a ∧ ValidBcd 0xA0) := by
  unfold ValidBcd; decide

/-- Both instructions, an immediate and a memory operand, both values of D, an operand that is not valid BCD. -/
theorem witness_DecimalModeIsChosenByDAndWritesAAndCarry :
    OperandIs (.adcImm 0x9A) busy 0x9A ∧ OperandIs (.sbcZp 0x10) busy 0xFF ∧ busy.flag .d = true ∧ State.reset.flag .d = false ∧
    ¬(ValidBcd busy.a ∧ ValidBcd 0x9A) ∧ ¬(ValidBcd busy.a ∧ ValidBcd 0xFF) :=
  ⟨.inl rfl, .inr ⟨.zp 0x10, rfl, rfl⟩, by decide, by decide, by unfold ValidBcd; decide, by unfold ValidBcd; decide⟩

theorem witness_SbcUndoesAdc :
    ∃ (s t u : State) (v : Byte), s.flag .d = false ∧ exec (.adcImm v) s = .next t ∧
      exec (.sbcImm v) (t.setFlag .c (!s.flag .c)) = .next u :=
  ⟨State.reset, _, _, 0xFF, by decide, rfl, rfl⟩

/-- Both clauses of `RtsPost`. -/
theorem witness_RtsReturnsOrEndsTheRun : 0 < busy.jsrcnt ∧ State.reset.jsrcnt = 0 := by decide

/-- Straight after the JSR, with `S` wrapping between the two pushes. -/
theorem witness_RtsUndoesJsr :
    ∃ (s s1 u : State) (a16 : Addr), exec (.jsr a16) s = .next s1 ∧ u.sp = s1.sp ∧ 0 < u.jsrcnt ∧ u.jsrcnt = s1.jsrcnt ∧
      u.read (stackAddr s.sp) = s1.read (stackAddr s.sp) ∧ u.read (stackAddr (s.sp - 1)) = s1.read (stackAddr (s.sp - 1)) :=
  ⟨busy, _, nextOr (exec (.jsr 0x0300) busy), 0x0300, rfl, rfl, by decide, rfl, rfl, rfl⟩

theorem witness_BrkRtiAndNopOnlyFetch :
    ∃ s : State, s.terminated = false ∧ s.pc.toNat < s.codeEnd.toNat ∧ s.read s.pc ∈ [(0x00 : Byte), 0x40, 0xEA] :=
  ⟨start [0x40] [] 0 0 0 0 0, by decide⟩

theorem witness_GeneralRegistersByTheirTable :
    (Reg.x.writtenBy (.staZpx 0xFF) = false ∧ ∃ t, exec (.staZpx 0xFF) busy = .next t) ∧
    (Reg.a.readBy (.ldaIndy 0x10) = false) ∧ (Reg.x.readBy (.ldxZpy 0x10) = false) ∧ (Reg.y.readBy .rorAcc = false) :=
  ⟨⟨rfl, _, rfl⟩, rfl, rfl, rfl⟩

theorem witness_FlagsByTheirMatrix :
    (∃ t, exec (.adcImm 0x99) busy = .next t) ∧ Flag.z ∉ flagsWritten (Instr.adcImm 0x99).mnemonic (busy.flag .d) ∧
    (Instr.plp).mnemonic ∉ Flag.i.readBy ∧ (Instr.adcImm 0x99).mnemonic ∉ Flag.b.readBy :=
  ⟨⟨_, rfl⟩, by decide, by decide, by decide⟩

theorem witness_ControlStateWriters :
    (∃ t, exec .inx busy = .next t) ∧ Instr.inx.mnemonic ∉ spWriters ∧ Instr.inx.mnemonic ∉ pcWriters :=
  ⟨⟨_, rfl⟩, by decide, by decide⟩

/-- An instruction with no write, and one with two. -/
theorem witness_MemoryChangesOnlyByItsTransactions :
    (∃ t, exec (.ldaIndx 0x10) busy = .next t) ∧ (∃ t, exec (.jsr 0x0300) busy = .next t) ∧
    (∀ addr v, Transaction.write addr v ∉ dataTransactions (.cmpImm 0x01) busy) :=
  ⟨⟨_, rfl⟩, ⟨_, rfl⟩, by simp [dataTransactions, Instr.operand]⟩

/-- The longest load that fits at 0xFFFC and the shortest that does not: both clauses of both load statements. -/
theorem witness_LoadExecutablePlacesAProgram :
    (0xFFFC : Addr).toNat + [(1 : Byte), 2, 3].length ≤ 0xFFFF ∧ 0xFFFF < (0xFFFC : Addr).toNat + [(1 : Byte), 2, 3, 4].length := by decide

theorem witness_LoadDataTouchesMemoryOnly :
    (0xFFFF : Addr).toNat + ([] : List Byte).length ≤ 0xFFFF ∧ 0xFFFF < (0xFFFF : Addr).toNat + [(0xAA : Byte)].length := by decide

theorem witness_HostReadsAndPatches :
    ((0xFFFF : Addr).toNat + 1 ≤ 0x10000 ∧ (0 : Nat) < 1 ∧ (0xFFFF : Addr).toNat = (0xFFFF : Addr).toNat + 0) ∧
    0x10000 < (0xFFFF : Addr).toNat + 2 := by decide

/-- A run that ends by the end of the data, one that ends by an RTS, from states that are not terminated. -/
theorem witness_RunEndsInExactlyOneWay :
    (∃ n s t, s.terminated = false ∧ run n s = .ended t ∧ t.terminated = true) ∧
    (∃ n s t, s.terminated = false ∧ run n s = .ended t ∧ t.terminated = false) ∧ (∀ u, run 1 State.reset ≠ .running u) :=
  ⟨⟨1, start [0x60] [] 0 0 0 0 0, _, rfl, rfl, rfl⟩, ⟨0, State.reset, _, rfl, rfl, rfl⟩, fun _ h => by cases h⟩

/-- Two zero bytes that fill the window. -/
theorem witness_ZeroFilledMemoryRunsAsNoOps :
    ∃ (n : Nat) (s : State), 0 < n ∧ s.terminated = false ∧ s.pc.toNat + n ≤ s.codeEnd.toNat ∧
      ∀ addr : Addr, s.pc.toNat ≤ addr.toNat → addr.toNat < s.pc.toNat + n → s.read addr = 0x00 :=
  ⟨2, { State.reset with codeEnd := 0x0002 }, by decide, rfl, by decide, fun _ _ _ => rfl⟩

end Sys2Proof.Tests
end

section
/-! PROOFS. The rule of each named update of a state: its frame, and whether it keeps `S`, `PC`, JSRCNT and TERMINATED. The
frame of a meaning is the composition of the frames of its updates. -/

namespace Sys2Proof.Machine

/-! ### Frames compose and weaken -/

theorem Frame.refl (s : State) : Frame [] [] [] s s where
  regs _ _ := rfl
  flags _ _ := rfl
  cells _ _ := rfl
  window := ⟨rfl, rfl⟩

theorem Frame.trans {r r' : List Reg} {f f' : List Flag} {c c' : List Addr} {s t u : State}
    (h : Frame r f c s t) (k : Frame r' f' c' t u) : Frame (r ++ r') (f ++ f') (c ++ c') s u where
  regs q hq := by
    obtain ⟨hr, hr'⟩ := not_or.1 (mt List.mem_append.2 hq)
    exact (k.regs q hr').trans (h.regs q hr)
  flags g hg := by
    obtain ⟨hf, hf'⟩ := not_or.1 (mt List.mem_append.2 hg)
    exact (k.flags g hf').trans (h.flags g hf)
  cells a ha := by
    obtain ⟨hc, hc'⟩ := not_or.1 (mt List.mem_append.2 ha)
    exact (k.cells a hc').trans (h.cells a hc)
  window := ⟨k.window.1.trans h.window.1, k.window.2.trans h.window.2⟩

/-- Only the listed flags matter, not their order. -/
theorem Frame.mono_flags {r : List Reg} {f f' : List Flag} {c : List Addr} {s t : State}
    (h : Frame r f c s t) (sub : f ⊆ f') : Frame r f' c s t :=
  { h with flags := fun g hg => h.flags g fun hf => hg (sub hf) }

theorem SameControl.refl (s : State) : SameControl s s := ⟨rfl, rfl, rfl, rfl⟩

theorem SameControl.trans {s t u : State} (h : SameControl s t) (k : SameControl t u) : SameControl s u where
  sp := k.sp.trans h.sp
  jsrcnt := k.jsrcnt.trans h.jsrcnt
  terminated := k.terminated.trans h.terminated
  pc := k.pc.trans h.pc

/-! ### The rule of each update -/

theorem frame_setReg (s : State) (q : Reg) (v : Byte) : Frame [q] [] [] s (s.setReg q v) where
  regs r hr := by rw [State.reg_setReg, if_neg (mt List.mem_singleton.2 hr)]
  flags _ _ := State.flag_setReg ..
  cells _ _ := State.read_setReg ..
  window := ⟨State.setReg_codeStart .., State.setReg_codeEnd ..⟩

theorem frame_write (s : State) (addr : Addr) (v : Byte) : Frame [] [] [addr] s (s.write addr v) where
  regs _ _ := State.reg_write ..
  flags _ _ := rfl
  cells other h := by rw [State.read_write, if_neg (mt (fun e => List.mem_singleton.2 e.symm) h)]
  window := ⟨rfl, rfl⟩

theorem frame_setFlag (s : State) (f : Flag) (b : Bool) : Frame [] [f] [] s (s.setFlag f b) where
  regs _ _ := State.reg_setFlag ..
  flags g hg := by rw [State.flag_setFlag, if_neg (mt List.mem_singleton.2 hg)]
  cells _ _ := rfl
  window := ⟨rfl, rfl⟩

theorem frame_setZN (s : State) (v : Byte) : Frame [] [.z, .n] [] s (s.setZN v) :=
  (frame_setFlag s .z _).trans (frame_setFlag _ .n _)

theorem frame_setP (s : State) (v : Byte) : Frame [] [.n, .v, .bit5, .b, .d, .i, .z, .c] [] s (s.setP v) where
  regs _ _ := State.reg_setP ..
  flags f hf := absurd (by cases f <;> decide) hf
  cells _ _ := rfl
  window := ⟨rfl, rfl⟩

theorem frame_setSp (s : State) (v : Byte) : Frame [] [] [] s (s.setSp v) :=
  ⟨fun _ _ => State.reg_setSp .., fun _ _ => rfl, fun _ _ => rfl, rfl, rfl⟩

theorem frame_setPc (s : State) (w : Addr) : Frame [] [] [] s (s.setPc w) :=
  ⟨fun _ _ => State.reg_setPc .., fun _ _ => rfl, fun _ _ => rfl, rfl, rfl⟩

theorem frame_setJsrcnt (s : State) (n : Nat) : Frame [] [] [] s (s.setJsrcnt n) :=
  ⟨fun _ _ => State.reg_setJsrcnt .., fun _ _ => rfl, fun _ _ => rfl, rfl, rfl⟩

theorem frame_setTerminated (s : State) (b : Bool) : Frame [] [] [] s (s.setTerminated b) :=
  ⟨fun _ _ => State.reg_setTerminated .., fun _ _ => rfl, fun _ _ => rfl, rfl, rfl⟩

theorem frame_push (s : State) (v : Byte) : Frame [] [] [stackAddr s.sp] s (s.push v) :=
  (frame_write s (stackAddr s.sp) v).trans (frame_setSp _ _)

theorem frame_pop (s : State) : Frame [] [] [] s s.pop.2 := frame_setSp s (s.sp + 1)

theorem sameControl_setReg (s : State) (q : Reg) (v : Byte) : SameControl s (s.setReg q v) :=
  ⟨State.setReg_sp .., State.setReg_jsrcnt .., State.setReg_terminated .., State.setReg_pc ..⟩

theorem sameControl_write (s : State) (addr : Addr) (v : Byte) : SameControl s (s.write addr v) := ⟨rfl, rfl, rfl, rfl⟩

theorem sameControl_setFlag (s : State) (f : Flag) (b : Bool) : SameControl s (s.setFlag f b) := ⟨rfl, rfl, rfl, rfl⟩

theorem sameControl_setZN (s : State) (v : Byte) : SameControl s (s.setZN v) := ⟨rfl, rfl, rfl, rfl⟩

/-! ### What the composite updates of the meanings write -/

theorem writesFlags_setFlag (s : State) (f : Flag) (b : Bool) : WritesFlags [f] s (s.setFlag f b) :=
  ⟨frame_setFlag s f b, sameControl_setFlag s f b⟩

/-- A flag write adds its flag to those a state differs in. -/
theorem WritesFlags.setFlag {fs : List Flag} {s t : State} (h : WritesFlags fs s t) (f : Flag) (b : Bool) :
    WritesFlags (fs ++ [f]) s (t.setFlag f b) :=
  ⟨h.frame.trans (frame_setFlag t f b), h.control.trans (sameControl_setFlag t f b)⟩

theorem writesFlags_setZN (s : State) (v : Byte) : WritesFlags [.z, .n] s (s.setZN v) :=
  (writesFlags_setFlag s .z _).setFlag .n _

theorem writesReg_setReg (s : State) (q : Reg) (v : Byte) : WritesReg q v [] s (s.setReg q v) :=
  ⟨by rw [State.reg_setReg, if_pos rfl], frame_setReg s q v, sameControl_setReg s q v⟩

theorem WritesReg.setFlag {q : Reg} {v : Byte} {fs : List Flag} {s t : State} (h : WritesReg q v fs s t) (f : Flag)
    (b : Bool) : WritesReg q v (fs ++ [f]) s (t.setFlag f b) :=
  ⟨(State.reg_setFlag ..).trans h.value, h.frame.trans (frame_setFlag t f b), h.control.trans (sameControl_setFlag t f b)⟩

theorem WritesReg.setZN {q : Reg} {v : Byte} {fs : List Flag} {s t : State} (h : WritesReg q v fs s t) (w : Byte) :
    WritesReg q v (fs ++ [.z, .n]) s (t.setZN w) :=
  ⟨(State.reg_setZN ..).trans h.value, h.frame.trans (frame_setZN t w), h.control.trans (sameControl_setZN t w)⟩

theorem writesCell_write (s : State) (addr : Addr) (v : Byte) : WritesCell addr v [] s (s.write addr v) :=
  ⟨by rw [State.read_write, if_pos rfl], frame_write s addr v, sameControl_write s addr v⟩

theorem WritesCell.setFlag {addr : Addr} {v : Byte} {fs : List Flag} {s t : State} (h : WritesCell addr v fs s t)
    (f : Flag) (b : Bool) : WritesCell addr v (fs ++ [f]) s (t.setFlag f b) :=
  ⟨h.value, h.frame.trans (frame_setFlag t f b), h.control.trans (sameControl_setFlag t f b)⟩

theorem WritesCell.setZN {addr : Addr} {v : Byte} {fs : List Flag} {s t : State} (h : WritesCell addr v fs s t)
    (w : Byte) : WritesCell addr v (fs ++ [.z, .n]) s (t.setZN w) :=
  ⟨h.value, h.frame.trans (frame_setZN t w), h.control.trans (sameControl_setZN t w)⟩

end Sys2Proof.Machine
end

section
/-! PROOFS. Reset (R30): the state it leaves, and the invariant at it. -/

namespace Sys2Proof.Machine

@[simp] theorem State.read_reset (addr : Addr) : State.reset.read addr = 0x00 := rfl

@[simp] theorem State.flag_reset (f : Flag) : State.reset.flag f = false := by cases f <;> rfl

theorem State.reset_inv : State.reset.Inv := ⟨State.reset_wf, fun _ => rfl, BitVec.le_refl _⟩

/-- Settles O1: reset ignores the state before, and each field of the reset state is the stated one. -/
theorem resetLeavesTheStatedState : Obligations.ResetLeavesTheStatedState := fun _ =>
  ⟨rfl, rfl, rfl, rfl, rfl, State.flag_reset, rfl, State.read_reset, rfl, rfl, rfl, rfl, rfl, rfl, rfl⟩

/-- Settles O2: the reset memory lists no cell, the run has not ended, and the window is empty. -/
theorem resetMeetsTheInvariant : Obligations.ResetMeetsTheInvariant := ⟨State.reset_inv, rfl⟩

end Sys2Proof.Machine
end

section
/-! PROOFS. The status byte (R15, R22): its bits as numbers, and a flag write bit by bit. -/

namespace Sys2Proof.Machine

/-- A byte is zero when its number is. -/
theorem beq_zero_eq_decide (v : Byte) : (v == 0) = decide (v.toNat = 0) := by
  rw [beq_eq_decide, decide_eq_decide, BitVec.toNat_eq]; rfl

theorem showsZN_setZN (s : State) (v : Byte) : ShowsZN v (s.setZN v) where
  zero := by rw [State.flag_setZN, if_neg (by decide), if_pos rfl, beq_zero_eq_decide]
  negative := by rw [State.flag_setZN, if_pos rfl]; exact BitVec.msb_eq_decide v

/-- A flag write leaves every bit outside the flag's mask (R15). -/
theorem Flag.getLsbD_put (f : Flag) (b : Bool) (p : Byte) (k : Nat) (h : f.mask.getLsbD k = false) :
    (f.put b p).getLsbD k = p.getLsbD k := by
  cases b with
  | true => simp [Flag.put, h]
  | false =>
    simp only [Flag.put, Bool.false_eq_true, if_false, BitVec.getLsbD_and, BitVec.getLsbD_not, h]
    by_cases hk : k < 8
    · simp [hk]
    · simp [BitVec.getLsbD_of_ge p k (by omega)]

/-- Settles O20: `SetZN` is two flag writes, at bits 1 and 7. -/
theorem setZNWritesTwoBits : Obligations.SetZNWritesTwoBits := by
  intro s v
  refine ⟨showsZN_setZN s v, writesFlags_setZN s v, fun k h1 h7 => ?_⟩
  have z : Flag.z.mask.getLsbD k = false := (BitVec.getLsbD_twoPow 1 k).trans (by simp [Ne.symm h1])
  have n : Flag.n.mask.getLsbD k = false := (BitVec.getLsbD_twoPow 7 k).trans (by simp [Ne.symm h7])
  calc (s.setZN v).p.getLsbD k
      = (Flag.z.put (v == 0) s.p).getLsbD k := Flag.getLsbD_put .n _ _ k n
    _ = s.p.getLsbD k := Flag.getLsbD_put .z _ _ k z

/-- The status byte is the sum of its flags at the masks of R15. -/
theorem Flag.sum_test (p : Byte) :
    p.toNat = 128 * (Flag.n.test p).toNat + 64 * (Flag.v.test p).toNat + 32 * (Flag.bit5.test p).toNat +
      16 * (Flag.b.test p).toNat + 8 * (Flag.d.test p).toNat + 4 * (Flag.i.test p).toNat + 2 * (Flag.z.test p).toNat +
      (Flag.c.test p).toNat := by
  revert p; decide

/-- Settles O21: every bit of the byte is a flag, and each write is read back. -/
theorem statusByteIsItsEightFlags : Obligations.StatusByteIsItsEightFlags := fun s f b _ =>
  ⟨Flag.sum_test s.p, (State.flag_setFlag s f f b).trans (if_pos rfl), writesFlags_setFlag s f b, rfl, rfl⟩

end Sys2Proof.Machine
end

section
/-! PROOFS. The flag-effect matrix and the writers of `S`, `PC`, JSRCNT, TERMINATED and the window (10_state.md sections 2 to 4):
what an instruction of each mnemonic can write of them. -/

namespace Sys2Proof.Machine

open Sys2Proof.Laws

/-- From `s` to `t` nothing changed but what the tables of 10_state.md let the mnemonic write; the general registers and the
cells are left open. -/
structure StaysInTables (m : Mnemonic) (s t : State) : Prop where
  flags : ∀ f, f ∉ flagsWritten m (s.flag .d) → t.flag f = s.flag f
  sp : m ∉ spWriters → t.sp = s.sp
  pc : m ∉ pcWriters → t.pc = s.pc
  jsrcnt : t.jsrcnt = if m = .jsr then s.jsrcnt + 1 else if m = .rts then s.jsrcnt - 1 else s.jsrcnt
  terminated : t.terminated = (s.terminated || (m == .rts && s.jsrcnt == 0))
  window : t.codeStart = s.codeStart ∧ t.codeEnd = s.codeEnd

namespace StaysInTables

variable {m : Mnemonic} {r : List Reg} {fs : List Flag} {c : List Addr} {s t : State}

/-- All mnemonics but JSR and RTS keep JSRCNT and TERMINATED. -/
theorem of_frame (frame : Frame r fs c s t) (sub : fs ⊆ flagsWritten m (s.flag .d)) (hm : m ∉ [Mnemonic.jsr, .rts])
    (sp : m ∉ spWriters → t.sp = s.sp) (pc : m ∉ pcWriters → t.pc = s.pc) (jsrcnt : t.jsrcnt = s.jsrcnt)
    (terminated : t.terminated = s.terminated) : StaysInTables m s t := by
  obtain ⟨hj, hr⟩ : m ≠ .jsr ∧ m ≠ .rts := by simpa using hm
  exact {
    flags := (frame.mono_flags sub).flags
    sp, pc
    jsrcnt := by rw [if_neg hj, if_neg hr, jsrcnt]
    terminated := by rw [terminated, beq_false_of_ne hr, Bool.false_and, Bool.or_false]
    window := frame.window }

theorem of_sameControl (frame : Frame r fs c s t) (control : SameControl s t) (sub : fs ⊆ flagsWritten m (s.flag .d))
    (hm : m ∉ [Mnemonic.jsr, .rts]) : StaysInTables m s t :=
  of_frame frame sub hm (fun _ => control.sp) (fun _ => control.pc) control.jsrcnt control.terminated

theorem of_writesReg {q : Reg} {v : Byte} (h : WritesReg q v fs s t) (sub : ∀ d, fs ⊆ flagsWritten m d)
    (hm : m ∉ [Mnemonic.jsr, .rts]) : StaysInTables m s t := of_sameControl h.frame h.control (sub _) hm

theorem of_writesCell {addr : Addr} {v : Byte} (h : WritesCell addr v fs s t) (sub : ∀ d, fs ⊆ flagsWritten m d)
    (hm : m ∉ [Mnemonic.jsr, .rts]) : StaysInTables m s t := of_sameControl h.frame h.control (sub _) hm

theorem of_writesFlags (h : WritesFlags fs s t) (sub : ∀ d, fs ⊆ flagsWritten m d) (hm : m ∉ [Mnemonic.jsr, .rts]) :
    StaysInTables m s t := of_sameControl h.frame h.control (sub _) hm

theorem of_stack (frame : Frame r fs c s t) (sub : ∀ d, fs ⊆ flagsWritten m d) (hm : m ∉ [Mnemonic.jsr, .rts])
    (writer : m ∈ spWriters) (pc : t.pc = s.pc) (jsrcnt : t.jsrcnt = s.jsrcnt) (terminated : t.terminated = s.terminated) :
    StaysInTables m s t :=
  of_frame frame (sub _) hm (absurd writer) (fun _ => pc) jsrcnt terminated

theorem refl (hm : m ∉ [Mnemonic.jsr, .rts]) : StaysInTables m s s :=
  of_sameControl (Frame.refl s) (SameControl.refl s) (List.nil_subset _) hm

theorem of_setPc (w : Addr) (hm : m ∉ [Mnemonic.jsr, .rts]) (writer : m ∈ pcWriters) : StaysInTables m s (s.setPc w) :=
  of_frame (frame_setPc s w) (List.nil_subset _) hm (fun _ => rfl) (absurd writer) rfl rfl

end StaysInTables

/-! ### The shared operations of the meanings -/

variable {m : Mnemonic} {s t : State}

theorem writesReg_addBinaryToA (v : Byte) (s : State) :
    WritesReg .a (addBinary s.a v (s.flag .c)).result [.c, .v, .z, .n] s (addBinaryToA v s) :=
  (((writesReg_setReg s .a _).setFlag .c _).setFlag .v _).setZN _

theorem writesReg_decimalToA (out : Byte × Bool) (s : State) : WritesReg .a out.1 [.c] s (decimalToA out s) :=
  (writesReg_setReg s .a out.1).setFlag .c out.2

/-- A decimal sum writes C, a binary one all four arithmetic flags (R161, R164). -/
theorem StaysInTables.of_addition {v : Byte} {out : Byte × Bool} (hm : m ∈ [Mnemonic.adc, .sbc])
    (h : (s.flag .d = true ∧ t = decimalToA out s) ∨ (s.flag .d = false ∧ t = addBinaryToA v s)) : StaysInTables m s t := by
  obtain ⟨keeps, decimal, binary⟩ : m ∉ [Mnemonic.jsr, .rts] ∧ [.c] ⊆ flagsWritten m true ∧
      [.c, .v, .z, .n] ⊆ flagsWritten m false := by revert m; decide
  rcases h with ⟨hd, rfl⟩ | ⟨hd, rfl⟩
  · have w := writesReg_decimalToA out s
    exact .of_sameControl w.frame w.control (hd ▸ decimal) keeps
  · have w := writesReg_addBinaryToA v s
    exact .of_sameControl w.frame w.control (hd ▸ binary) keeps

/-- A load, a transfer, a logic instruction, a register increment: one register, Z and N. -/
theorem StaysInTables.of_setReg_setZN {q : Reg} {v : Byte} (h : t = (s.setReg q v).setZN v)
    (sub : ∀ d, [.z, .n] ⊆ flagsWritten m d) (hm : m ∉ [Mnemonic.jsr, .rts]) : StaysInTables m s t :=
  h ▸ .of_writesReg ((writesReg_setReg s q v).setZN v) sub hm

theorem StaysInTables.of_write (addr : Addr) (v : Byte) (hm : m ∉ [Mnemonic.jsr, .rts]) :
    StaysInTables m s (s.write addr v) :=
  .of_writesCell (writesCell_write s addr v) (fun _ => List.nil_subset _) hm

theorem StaysInTables.of_addToCell {delta : Byte} {form : MemForm} (h : addToCell delta form s = .next t)
    (sub : ∀ d, [.z, .n] ⊆ flagsWritten m d) (hm : m ∉ [Mnemonic.jsr, .rts]) : StaysInTables m s t :=
  addToCell_next h ▸ .of_writesCell ((writesCell_write s _ _).setZN _) sub hm

theorem StaysInTables.of_shiftBy {op : ShiftOp} {o : Operand} (h : shiftBy op o s = .next t)
    (sub : ∀ d, [.c, .z, .n] ⊆ flagsWritten m d) (hm : m ∉ [Mnemonic.jsr, .rts]) : StaysInTables m s t := by
  have acc : shiftAcc op s = .next t → StaysInTables m s t := fun h =>
    shiftAcc_next h ▸ .of_writesReg (((writesReg_setReg s .a _).setFlag .c _).setZN _) sub hm
  cases o with
  | mem form => exact shiftMem_next h ▸ .of_writesCell (((writesCell_write s _ _).setFlag .c _).setZN _) sub hm
  | imp | acc | imm | ind | rel => exact acc h

theorem StaysInTables.of_compareReg {v w : Byte} (h : compareReg v w s = .next t)
    (sub : ∀ d, [.z, .c, .n] ⊆ flagsWritten m d) (hm : m ∉ [Mnemonic.jsr, .rts]) : StaysInTables m s t :=
  compareReg_next h ▸ .of_writesFlags (((writesFlags_setFlag s .z _).setFlag .c _).setFlag .n _) sub hm

theorem StaysInTables.of_bitTest {v : Byte} (h : bitTest v s = .next t)
    (sub : ∀ d, [.n, .v, .z] ⊆ flagsWritten m d) (hm : m ∉ [Mnemonic.jsr, .rts]) : StaysInTables m s t :=
  bitTest_next h ▸ .of_writesFlags (((writesFlags_setFlag s .n _).setFlag .v _).setFlag .z _) sub hm

theorem StaysInTables.of_flagInstr {f : Flag} {b : Bool} (h : flagInstr f b s = .next t)
    (sub : ∀ d, [f] ⊆ flagsWritten m d) (hm : m ∉ [Mnemonic.jsr, .rts]) : StaysInTables m s t :=
  flagInstr_next h ▸ .of_writesFlags (writesFlags_setFlag s f b) sub hm

theorem StaysInTables.of_branchIf {cond : Bool} {d : Byte} (h : branchIf cond d s = .next t)
    (hm : m ∉ [Mnemonic.jsr, .rts]) (writer : m ∈ pcWriters) : StaysInTables m s t := by
  rw [branchIf_next h]
  cases cond with
  | false => exact .refl hm
  | true => exact .of_setPc _ hm writer

theorem StaysInTables.of_push (v : Byte) (hm : m ∉ [Mnemonic.jsr, .rts]) (writer : m ∈ spWriters) :
    StaysInTables m s (s.push v) :=
  .of_stack (frame_push s v) (fun _ => List.nil_subset _) hm writer rfl rfl rfl

theorem frame_of_execJsr {a16 : Addr} (h : execJsr a16 s = .next t) :
    Frame [] [] [stackAddr s.sp, stackAddr (s.sp - 1)] s t := by
  obtain rfl := execJsr_next h
  exact (((frame_push s _).trans (frame_push _ _)).trans (frame_setPc _ _)).trans (frame_setJsrcnt _ _)

theorem frame_of_execRts (h : execRts s = .next t) : Frame [] [] [] s t := by
  rcases execRts_next h with ⟨-, rfl⟩ | ⟨-, rfl⟩
  · exact (((frame_pop s).trans (frame_pop _)).trans (frame_setPc _ _)).trans (frame_setJsrcnt _ _)
  · exact frame_setTerminated s true

/-- JSR pushes twice, jumps and counts (R202). -/
theorem StaysInTables.of_execJsr {a16 : Addr} (h : execJsr a16 s = .next t) : StaysInTables .jsr s t where
  flags f _ := (frame_of_execJsr h).flags f List.not_mem_nil
  sp := absurd (by decide)
  pc := absurd (by decide)
  jsrcnt := by rw [execJsr_next h, if_pos rfl, State.setJsrcnt_jsrcnt]
  terminated := by simp [execJsr_next h]
  window := (frame_of_execJsr h).window

/-- RTS returns and counts down, or ends the run (R204). -/
theorem StaysInTables.of_execRts (h : execRts s = .next t) : StaysInTables .rts s t where
  flags f _ := (frame_of_execRts h).flags f List.not_mem_nil
  sp := absurd (by decide)
  pc := absurd (by decide)
  jsrcnt := by
    rcases execRts_next h with ⟨-, rfl⟩ | ⟨none, rfl⟩
    · rfl
    · simp [none]
  terminated := by
    rcases execRts_next h with ⟨pending, rfl⟩ | ⟨none, rfl⟩
    · simp [Nat.ne_of_gt pending]
    · simp [none]
  window := (frame_of_execRts h).window

/-- Every instruction stays in the tables of its mnemonic. -/
theorem staysInTables_of_execBy {o : Operand} (h : execBy m o s = .next t) : StaysInTables m s t := by
  cases m
  case adc => exact .of_addition (by decide) (addWithCarry_next h)
  case sbc => exact .of_addition (by decide) (subtractWithBorrow_next h)
  case and | eor | ora => exact .of_setReg_setZN (logicResult_next h) (by decide) (by decide)
  case lda | ldx | ldy => exact .of_setReg_setZN (loadReg_next h) (by decide) (by decide)
  case tax | tay | tsx | txa | tya => exact .of_setReg_setZN (transfer_next h) (by decide) (by decide)
  case inx | iny | dex | dey => exact .of_setReg_setZN (addToReg_next h) (by decide) (by decide)
  case inc | dec => exact .of_addToCell h (by decide) (by decide)
  case asl | lsr | rol | ror => exact .of_shiftBy h (by decide) (by decide)
  case cmp | cpx | cpy => exact .of_compareReg h (by decide) (by decide)
  case bit => exact .of_bitTest h (by decide) (by decide)
  case clc | cld | cli | clv | sec | sed | sei => exact .of_flagInstr h (by decide) (by decide)
  case sta | stx | sty => exact storeByte_next h ▸ .of_write _ _ (by decide)
  case bcc | bcs | beq | bmi | bne | bpl | bvc | bvs => exact .of_branchIf h (by decide) (by decide)
  case jmp => obtain rfl := Host.Outcome.next.inj h; exact .of_setPc _ (by decide) (by decide)
  case jsr => exact .of_execJsr h
  case rts => exact .of_execRts h
  case brk | rti | nop => obtain rfl := Host.Outcome.next.inj h; exact .refl (by decide)
  case pha | php => obtain rfl := Host.Outcome.next.inj h; exact .of_push _ (by decide) (by decide)
  case pla =>
    obtain rfl := Host.Outcome.next.inj h
    exact .of_stack (((frame_pop s).trans (frame_setReg _ .a _)).trans (frame_setZN _ _)) (by decide) (by decide)
      (by decide) rfl rfl rfl
  case plp =>
    obtain rfl := Host.Outcome.next.inj h
    exact .of_stack ((frame_pop s).trans (frame_setP _ _)) (by decide) (by decide) (by decide) rfl rfl rfl
  case txs =>
    obtain rfl := Host.Outcome.next.inj h
    exact .of_stack (frame_setSp s _) (by decide) (by decide) (by decide) rfl rfl rfl

theorem exec_staysInTables {i : Instr} (h : exec i s = .next t) : StaysInTables i.mnemonic s t :=
  staysInTables_of_execBy (exec_eq_execBy i s ▸ h)

/-- Settles O54: the parts of `StaysInTables` that speak of the control state. -/
theorem controlStateWriters : Obligations.ControlStateWriters := by
  intro i s t h
  have k := exec_staysInTables h
  exact ⟨k.sp, k.pc, k.jsrcnt, k.terminated, k.window⟩

end Sys2Proof.Machine
end

section
/-! PROOFS. Who reads a flag (R16 to R23): a flag changed before an instruction that does not read it is a flag changed after it,
or nothing at all where the instruction writes it. -/

namespace Sys2Proof.Machine

open Sys2Proof.Laws

/-- `f` set to `b`, unless it is one of the flags `fs` that have been written since. -/
def State.setFlagUnless (fs : List Flag) (f : Flag) (b : Bool) (s : State) : State := if f ∈ fs then s else s.setFlag f b

/-! ### A flag write before an update moves behind it -/

section

variable (fs : List Flag) (f : Flag) (b : Bool) (s : State)

theorem State.setFlag_eq_setFlagUnless : s.setFlag f b = s.setFlagUnless [] f b := rfl

theorem State.setFlagUnless_congr {fs gs : List Flag} (same : fs.Perm gs) :
    State.setFlagUnless fs f b = State.setFlagUnless gs f b := by
  funext s; simp only [State.setFlagUnless, same.mem_iff]

/-- Of two writes of one flag the later one counts; writes of two flags change places. -/
theorem State.setFlag_setFlag (g : Flag) (c : Bool) :
    (s.setFlag f b).setFlag g c = (s.setFlag g c).setFlagUnless [g] f b := by
  by_cases e : f = g
  · subst e
    rw [State.setFlagUnless, if_pos (List.mem_singleton.2 rfl)]
    refine congrArg s.setP (Flag.ext_byte _ _ fun k => ?_)
    simp only [State.setFlag_p, Flag.test_put]
    by_cases hk : k = f <;> simp [hk]
  · rw [State.setFlagUnless, if_neg (mt List.mem_singleton.1 e)]
    refine congrArg s.setP (Flag.ext_byte _ _ fun k => ?_)
    simp only [State.setFlag_p, Flag.test_put]
    by_cases hk : k = f
    · simp [hk, e]
    · simp [hk]

theorem State.setFlagUnless_setFlag (g : Flag) (c : Bool) :
    (s.setFlagUnless fs f b).setFlag g c = (s.setFlag g c).setFlagUnless (g :: fs) f b := by
  by_cases h : f ∈ fs
  · simp [State.setFlagUnless, h]
  · rw [State.setFlagUnless, if_neg h, State.setFlag_setFlag]
    simp [State.setFlagUnless, h]

theorem State.setFlagUnless_setZN (v : Byte) :
    (s.setFlagUnless fs f b).setZN v = (s.setZN v).setFlagUnless (.n :: .z :: fs) f b := by
  simp only [State.setZN, State.setFlagUnless_setFlag]

theorem State.setFlag_setZN (v : Byte) : (s.setFlag f b).setZN v = (s.setZN v).setFlagUnless [.n, .z] f b :=
  State.setFlagUnless_setZN [] f b s v

theorem State.setFlag_setReg (q : Reg) (v : Byte) : (s.setFlag f b).setReg q v = (s.setReg q v).setFlag f b := by
  cases q <;> rfl

theorem State.setFlag_write (addr : Addr) (v : Byte) : (s.setFlag f b).write addr v = (s.write addr v).setFlag f b := rfl

theorem State.setFlag_setPc (w : Addr) : (s.setFlag f b).setPc w = (s.setPc w).setFlag f b := rfl

theorem State.setFlag_setJsrcnt (n : Nat) : (s.setFlag f b).setJsrcnt n = (s.setJsrcnt n).setFlag f b := rfl

theorem State.setFlag_push (v : Byte) : (s.setFlag f b).push v = (s.push v).setFlag f b := rfl

/-! ### Operands are fetched without a look at `P` -/

@[simp] theorem effectiveAddress_setFlag (form : MemForm) : effectiveAddress (s.setFlag f b) form = effectiveAddress s form := by
  cases form <;> rfl

@[simp] theorem sourceByte_setFlag (o : Operand) : sourceByte (s.setFlag f b) o = sourceByte s o := by
  cases o with
  | mem form => simp [sourceByte, memOperand]
  | imp | acc | imm | ind | rel => rfl

@[simp] theorem jumpTarget_setFlag (o : Operand) : jumpTarget (s.setFlag f b) o = jumpTarget s o := by
  cases o with
  | mem form => exact effectiveAddress_setFlag ..
  | imp | acc | imm | ind | rel => rfl

/-! ### The shared operations of the meanings -/

theorem loadReg_setFlag (q : Reg) (v : Byte) :
    loadReg q v (s.setFlag f b) = mapNext (State.setFlagUnless [.n, .z] f b) (loadReg q v s) :=
  congrArg Host.Outcome.next (by rw [State.setFlag_setReg, State.setFlag_setZN])

theorem transfer_setFlag (q : Reg) (v : Byte) :
    transfer q v (s.setFlag f b) = mapNext (State.setFlagUnless [.n, .z] f b) (transfer q v s) :=
  loadReg_setFlag f b s q v

theorem logicResult_setFlag (r : Byte) :
    logicResult r (s.setFlag f b) = mapNext (State.setFlagUnless [.n, .z] f b) (logicResult r s) :=
  loadReg_setFlag f b s .a r

theorem addToReg_setFlag (delta : Byte) (q : Reg) :
    addToReg delta q (s.setFlag f b) = mapNext (State.setFlagUnless [.n, .z] f b) (addToReg delta q s) := by
  simp only [addToReg, State.reg_setFlag]
  exact loadReg_setFlag f b s q _

theorem storeByte_setFlag (form : MemForm) (v : Byte) :
    storeByte form v (s.setFlag f b) = mapNext (State.setFlagUnless [] f b) (storeByte form v s) :=
  congrArg Host.Outcome.next (by rw [effectiveAddress_setFlag, State.setFlag_write, State.setFlag_eq_setFlagUnless])

theorem addToCell_setFlag (delta : Byte) (form : MemForm) :
    addToCell delta form (s.setFlag f b) = mapNext (State.setFlagUnless [.n, .z] f b) (addToCell delta form s) := by
  simp only [addToCell, effectiveAddress_setFlag, State.read_setFlag, State.setFlag_write, State.setFlag_setZN, mapNext]

theorem compareReg_setFlag (r v : Byte) :
    compareReg r v (s.setFlag f b) = mapNext (State.setFlagUnless [.n, .z, .c] f b) (compareReg r v s) := by
  rw [State.setFlagUnless_congr f b (by decide : [Flag.n, .z, .c].Perm [.n, .c, .z])]
  simp only [compareReg, State.setFlag_setFlag, State.setFlagUnless_setFlag, mapNext]

theorem bitTest_setFlag (v : Byte) :
    bitTest v (s.setFlag f b) = mapNext (State.setFlagUnless [.n, .v, .z] f b) (bitTest v s) := by
  rw [State.setFlagUnless_congr f b (by decide : [Flag.n, .v, .z].Perm [.z, .v, .n])]
  simp only [bitTest, State.setFlag_a, State.setFlag_setFlag, State.setFlagUnless_setFlag, mapNext]

theorem flagInstr_setFlag (g : Flag) (c : Bool) :
    flagInstr g c (s.setFlag f b) = mapNext (State.setFlagUnless [g] f b) (flagInstr g c s) :=
  congrArg Host.Outcome.next (State.setFlag_setFlag f b s g c)

theorem branchIf_setFlag (cond : Bool) (d : Byte) :
    branchIf cond d (s.setFlag f b) = mapNext (State.setFlagUnless [] f b) (branchIf cond d s) := by
  cases cond <;> rfl

theorem execJsr_setFlag (a16 : Addr) :
    execJsr a16 (s.setFlag f b) = mapNext (State.setFlagUnless [] f b) (execJsr a16 s) := by
  simp only [execJsr, State.setFlag_pc, State.setFlag_jsrcnt, State.setFlag_push, State.setFlag_setPc,
    State.setFlag_setJsrcnt, mapNext]
  rfl

theorem execRts_setFlag : execRts (s.setFlag f b) = mapNext (State.setFlagUnless [] f b) (execRts s) := by
  by_cases pending : 0 < s.jsrcnt
  · rw [execRts, if_pos (by exact pending), execRts, if_pos pending]; rfl
  · rw [execRts, if_neg (by exact pending), execRts, if_neg pending]; rfl

/-! ASL and LSR do not read Carry (R141, R142). -/

theorem shift_asl_carry (v : Byte) (c d : Bool) : shift .asl v c = shift .asl v d := rfl

theorem shift_lsr_carry (v : Byte) (c d : Bool) : shift .lsr v c = shift .lsr v d := rfl

variable {f s}

/-- A shift passes the change on when it computes the same from either Carry. -/
theorem shiftBy_setFlag {op : ShiftOp} (same : ∀ v, shift op v ((s.setFlag f b).flag .c) = shift op v (s.flag .c))
    (o : Operand) :
    shiftBy op o (s.setFlag f b) = mapNext (State.setFlagUnless [.n, .z, .c] f b) (shiftBy op o s) := by
  have acc : shiftAcc op (s.setFlag f b) = mapNext (State.setFlagUnless [.n, .z, .c] f b) (shiftAcc op s) := by
    simp only [shiftAcc, same, State.setFlag_a, State.setFlag_setReg, State.setFlag_setFlag, State.setFlagUnless_setZN,
      mapNext]
  cases o with
  | mem form =>
    simp only [shiftBy, shiftMem, same, effectiveAddress_setFlag, State.read_setFlag, State.setFlag_write,
      State.setFlag_setFlag, State.setFlagUnless_setZN, mapNext]
  | imp | acc | imm | ind | rel => exact acc

theorem addBinaryToA_setFlag (v : Byte) (same : (s.setFlag f b).flag .c = s.flag .c) :
    addBinaryToA v (s.setFlag f b) = (addBinaryToA v s).setFlagUnless [.n, .v, .z, .c] f b := by
  rw [State.setFlagUnless_congr f b (by decide : [Flag.n, .v, .z, .c].Perm [.n, .z, .v, .c])]
  simp only [addBinaryToA, same, State.setFlag_a, State.setFlag_setReg, State.setFlag_setFlag,
    State.setFlagUnless_setFlag, State.setFlagUnless_setZN]

theorem decimalToA_setFlag (out : Byte × Bool) :
    decimalToA out (s.setFlag f b) = (decimalToA out s).setFlagUnless [.c] f b := by
  simp only [decimalToA, State.setFlag_setReg, State.setFlag_setFlag]

theorem addWithCarry_setFlag (v : Byte) (sameC : (s.setFlag f b).flag .c = s.flag .c)
    (sameD : (s.setFlag f b).flag .d = s.flag .d) :
    addWithCarry v (s.setFlag f b) =
      mapNext (State.setFlagUnless (flagsWritten .adc (s.flag .d)) f b) (addWithCarry v s) := by
  simp only [addWithCarry, sameC, sameD, State.setFlag_a, decimalToA_setFlag, addBinaryToA_setFlag b _ sameC]
  cases s.flag .d <;> rfl

theorem subtractWithBorrow_setFlag (v : Byte) (sameC : (s.setFlag f b).flag .c = s.flag .c)
    (sameD : (s.setFlag f b).flag .d = s.flag .d) :
    subtractWithBorrow v (s.setFlag f b) =
      mapNext (State.setFlagUnless (flagsWritten .sbc (s.flag .d)) f b) (subtractWithBorrow v s) := by
  simp only [subtractWithBorrow, sameC, sameD, State.setFlag_a, decimalToA_setFlag, addBinaryToA_setFlag b _ sameC]
  cases s.flag .d <;> rfl

end

/-! ### Every instruction -/

variable {m : Mnemonic} {f : Flag}

/-- A flag that an instruction reads keeps its value when one it does not read is written. -/
theorem State.flag_setFlag_of_unread (g : Flag) (reads : m ∈ g.readBy) (unread : m ∉ f.readBy) (b : Bool) (s : State) :
    (s.setFlag f b).flag g = s.flag g :=
  (State.flag_setFlag ..).trans (if_neg (by rintro rfl; exact unread reads))

/-- PLP writes the whole byte (R134). -/
theorem mem_flagsWritten_plp (f : Flag) (d : Bool) : f ∈ flagsWritten .plp d := by
  cases f <;> decide +revert

/-- A flag written before an instruction that does not read it is written after it, or nothing where the instruction writes it. -/
theorem execBy_setFlag (unread : m ∉ f.readBy) (b : Bool) (o : Operand) (s : State) :
    execBy m o (s.setFlag f b) = mapNext (State.setFlagUnless (flagsWritten m (s.flag .d)) f b) (execBy m o s) := by
  cases m
  case adc =>
    simp only [execBy, sourceByte_setFlag]
    exact addWithCarry_setFlag b _ (s.flag_setFlag_of_unread .c (by decide) unread b)
      (s.flag_setFlag_of_unread .d (by decide) unread b)
  case sbc =>
    simp only [execBy, sourceByte_setFlag]
    exact subtractWithBorrow_setFlag b _ (s.flag_setFlag_of_unread .c (by decide) unread b)
      (s.flag_setFlag_of_unread .d (by decide) unread b)
  case and | eor | ora => simp only [execBy, flagsWritten, sourceByte_setFlag, State.setFlag_a, logicResult_setFlag]
  case lda | ldx | ldy => simp only [execBy, flagsWritten, sourceByte_setFlag, loadReg_setFlag]
  case tax | tay => simp only [execBy, flagsWritten, State.setFlag_a, transfer_setFlag]
  case tsx => exact transfer_setFlag f b s .x s.sp
  case txa => exact transfer_setFlag f b s .a s.x
  case tya => exact transfer_setFlag f b s .a s.y
  case inx | iny | dex | dey => exact addToReg_setFlag f b s _ _
  case inc | dec => exact addToCell_setFlag f b s _ _
  case asl => exact shiftBy_setFlag b (fun _ => shift_asl_carry ..) o
  case lsr => exact shiftBy_setFlag b (fun _ => shift_lsr_carry ..) o
  case rol | ror => exact shiftBy_setFlag b (fun v => by rw [s.flag_setFlag_of_unread .c (by decide) unread b]) o
  case cmp => simp only [execBy, flagsWritten, sourceByte_setFlag, State.setFlag_a, compareReg_setFlag]
  case cpx => simp only [execBy, flagsWritten, sourceByte_setFlag, State.setFlag_x, compareReg_setFlag]
  case cpy => simp only [execBy, flagsWritten, sourceByte_setFlag, State.setFlag_y, compareReg_setFlag]
  case bit => simp only [execBy, flagsWritten, sourceByte_setFlag, bitTest_setFlag]
  case clc | cld | cli | clv | sec | sed | sei => exact flagInstr_setFlag f b s _ _
  case sta | stx | sty => exact storeByte_setFlag f b s _ _
  case bcc | bcs =>
    simp only [execBy, flagsWritten, s.flag_setFlag_of_unread .c (by decide) unread b, branchIf_setFlag]
  case beq | bne =>
    simp only [execBy, flagsWritten, s.flag_setFlag_of_unread .z (by decide) unread b, branchIf_setFlag]
  case bmi | bpl =>
    simp only [execBy, flagsWritten, s.flag_setFlag_of_unread .n (by decide) unread b, branchIf_setFlag]
  case bvc | bvs =>
    simp only [execBy, flagsWritten, s.flag_setFlag_of_unread .v (by decide) unread b, branchIf_setFlag]
  case jmp => simp only [execBy, flagsWritten, jumpTarget_setFlag]; rfl
  case jsr => simp only [execBy, flagsWritten, jumpTarget_setFlag, execJsr_setFlag]
  case rts => exact execRts_setFlag f b s
  case brk | rti | nop | pha | txs => rfl
  case php => exact absurd (by cases f <;> decide) unread
  case pla => exact loadReg_setFlag f b s.pop.2 .a s.pop.1
  case plp => exact congrArg Host.Outcome.next (if_pos (mem_flagsWritten_plp f _)).symm

/-- Settles O53: what is written by `StaysInTables`, what is read by `execBy_setFlag`. -/
theorem flagsByTheirMatrix : Obligations.FlagsByTheirMatrix :=
  ⟨fun _ _ _ f h => (exec_staysInTables h).flags f, fun _ i s b unread => by
    rw [exec_eq_execBy, exec_eq_execBy]
    exact execBy_setFlag unread b i.operand s⟩

end Sys2Proof.Machine
end

section
/-! PROOFS. Memory and the stack (R45, R52, R53): what a write, a push and a pop do, read back through memory and through the
fetch. -/

namespace Sys2Proof.Machine

theorem State.read_write_same (s : State) (addr : Addr) (v : Byte) : (s.write addr v).read addr = v :=
  (writesCell_write s addr v).value

/-- A byte written at `PC`, below the window's end, is the byte fetched (R45, R82). -/
theorem fetchByte_write_pc (s : State) (v : Byte) (h : s.pc < s.codeEnd) :
    fetchByte (s.write s.pc v) = .ok (v, (s.write s.pc v).setPc (s.pc + 1)) := by
  rw [fetchByte_below_end _ (by exact h), State.write_pc, State.read_write_same]

/-- Settles O16: `writesCell_write`, and `fetchByte_write_pc` for the fetch. -/
theorem memWriteSetsOneCell : Obligations.MemWriteSetsOneCell := by
  intro s addr v
  have w := writesCell_write s addr v
  refine ⟨w.value, fun other ne => w.frame.cells other (mt List.mem_singleton.1 ne), w.frame, w.control, rfl, ?_⟩
  rintro rfl below
  exact ⟨_, fetchByte_write_pc s v below⟩

theorem State.read_push_stackAddr (s : State) (v : Byte) : (s.push v).read (stackAddr s.sp) = v :=
  State.read_write_same s (stackAddr s.sp) v

theorem State.push_sp_toNat (s : State) (v : Byte) : (s.push v).sp.toNat = (s.sp.toNat + 255) % 256 := by
  rw [State.push_sp]
  bv_omega

theorem State.pop_sp_toNat (s : State) : s.pop.2.sp.toNat = (s.sp.toNat + 1) % 256 :=
  BitVec.toNat_add s.sp 1

/-- A pop takes back the pointer that a push took down (R52, R53). -/
theorem State.pop_push_sp (s : State) (v : Byte) : (s.push v).pop.2.sp = s.sp :=
  BitVec.sub_add_cancel s.sp 1

theorem State.pop_push_value (s : State) (v : Byte) : (s.push v).pop.1 = v :=
  calc (s.push v).pop.1
      = (s.push v).read (stackAddr (s.push v).pop.2.sp) := rfl
    _ = v := by rw [State.pop_push_sp, State.read_push_stackAddr]

/-- Settles O18: the cell is the one `stackAddr` names. -/
theorem pushWritesThenDecrements : Obligations.PushWritesThenDecrements := fun s v =>
  ⟨⟨stackAddr s.sp, stackAddr_toNat s.sp, State.read_push_stackAddr s v, frame_push s v⟩, State.push_sp_toNat s v, rfl, rfl,
    rfl, rfl⟩

/-- Settles O19: the address of the read is the stack cell of the new pointer. -/
theorem popIncrementsThenReads : Obligations.PopIncrementsThenReads := by
  intro s
  refine ⟨fun addr h => ?_, State.pop_sp_toNat s, rfl, fun v => ⟨State.pop_push_value s v, State.pop_push_sp s v⟩⟩
  have cell : addr = stackAddr s.pop.2.sp :=
    BitVec.eq_of_toNat_eq (by rw [h, stackAddr_toNat, State.pop_sp_toNat])
  rw [cell]; rfl

end Sys2Proof.Machine
end

section
/-! PROOFS. The invariant (R40, R25, R26): every instruction keeps the canonical form of memory, and so every step keeps all
three of its parts. -/

namespace Sys2Proof.Machine

open Sys2Proof.Laws

variable {m : Mnemonic} {i : Instr} {s t : State}

theorem shiftBy_wf {op : ShiftOp} {o : Operand} (h : shiftBy op o s = .next t) (wf : s.mem.wf = true) :
    t.mem.wf = true := by
  have acc : shiftAcc op s = .next t → t.mem.wf = true := fun h => by simpa [shiftAcc_next h] using wf
  cases o with
  | mem form =>
    rw [shiftMem_next h, State.setZN_mem, State.setFlag_mem]
    exact State.write_wf s _ _ wf
  | imp | acc | imm | ind | rel => exact acc h

theorem branchIf_wf {cond : Bool} {d : Byte} (h : branchIf cond d s = .next t) (wf : s.mem.wf = true) :
    t.mem.wf = true := by
  rw [branchIf_next h]
  cases cond <;> exact wf

theorem execRts_wf (h : execRts s = .next t) (wf : s.mem.wf = true) : t.mem.wf = true := by
  rcases execRts_next h with ⟨-, rfl⟩ | ⟨-, rfl⟩ <;> simpa using wf

/-- An instruction keeps the canonical form of memory: it writes no cell, or writes through `MemWrite` and Push. -/
theorem execBy_wf {o : Operand} (h : execBy m o s = .next t) (wf : s.mem.wf = true) : t.mem.wf = true := by
  cases m
  case adc => rcases addWithCarry_next h with ⟨-, rfl⟩ | ⟨-, rfl⟩ <;> exact wf
  case sbc => rcases subtractWithBorrow_next h with ⟨-, rfl⟩ | ⟨-, rfl⟩ <;> exact wf
  case and | eor | ora => simpa [logicResult_next h] using wf
  case lda | ldx | ldy => simpa [loadReg_next h] using wf
  case tax | tay | tsx | txa | tya => simpa [transfer_next h] using wf
  case inx | iny | dex | dey => simpa [addToReg_next h] using wf
  case cmp | cpx | cpy => simpa [compareReg_next h] using wf
  case bit => simpa [bitTest_next h] using wf
  case clc | cld | cli | clv | sec | sed | sei => simpa [flagInstr_next h] using wf
  case bcc | bcs | beq | bmi | bne | bpl | bvc | bvs => exact branchIf_wf h wf
  case jmp | brk | rti | nop | pla | plp | txs => exact Host.Outcome.next.inj h ▸ wf
  case rts => exact execRts_wf h wf
  case sta | stx | sty => obtain rfl := storeByte_next h; exact State.write_wf s _ _ wf
  case inc | dec =>
    rw [addToCell_next h, State.setZN_mem]
    exact State.write_wf s _ _ wf
  case asl | lsr | rol | ror => exact shiftBy_wf h wf
  case pha | php => obtain rfl := Host.Outcome.next.inj h; exact State.push_wf s _ wf
  case jsr =>
    rw [execJsr_next h, State.setJsrcnt_mem, State.setPc_mem]
    exact State.push_wf _ _ (State.push_wf s _ wf)

theorem exec_wf (h : exec i s = .next t) (wf : s.mem.wf = true) : t.mem.wf = true :=
  execBy_wf (exec_eq_execBy i s ▸ h) wf

/-- Only an RTS with no JSR pending ends a run, and it leaves none pending (R204). -/
theorem exec_jsrcnt_of_terminated (h : exec i s = .next t) (running : s.terminated = false) (ended : t.terminated = true) :
    t.jsrcnt = 0 := by
  have k := exec_staysInTables h
  obtain ⟨rts, none⟩ : i.mnemonic = .rts ∧ s.jsrcnt = 0 := by simpa [running] using k.terminated.symm.trans ended
  rw [k.jsrcnt, rts, none]
  rfl

/-- In a run that has not ended every instruction keeps the invariant. In one that has, JSR would leave a JSR pending. -/
theorem exec_inv (inv : s.Inv) (running : s.terminated = false) (h : exec i s = .next t) : t.Inv := by
  obtain ⟨wf, -, window⟩ := inv
  obtain ⟨start, stop⟩ := (exec_staysInTables h).window
  exact ⟨exec_wf h wf, exec_jsrcnt_of_terminated h running, by rwa [start, stop]⟩

/-- What a step that answers a next state did: in a run that has not ended it fetched an instruction and executed it (R80,
R81). -/
theorem step_next (h : step s = .next t) :
    s.terminated = false ∧ ∃ i s', fetchInstr s = .ok (i, s') ∧ exec i s' = .next t := by
  cases running : s.terminated with
  | true => rw [step_terminated s running] at h; cases h
  | false =>
    rw [step_running s running] at h
    split at h
    · cases h
    · next i s' fetched => exact ⟨rfl, i, s', fetched, h⟩

/-- Settles O3: the fetch moves `PC` only, of which the invariant does not speak, and `exec_inv` does the rest. -/
theorem stepKeepsTheInvariant : Obligations.StepKeepsTheInvariant := by
  intro s t inv h
  obtain ⟨running, i, s', fetched, executed⟩ := step_next h
  rw [fetchInstr_ok s s' i fetched] at executed
  have atExec : (s.setPc s'.pc).Inv := inv
  exact exec_inv atExec running executed

end Sys2Proof.Machine
end

section
/-! PROOFS. The decoder on words written out from the opcode map (R66). -/

namespace Sys2Proof

/-- Settles O7: the decoder evaluated at each word. -/
theorem spotEncodingsDecode : Obligations.SpotEncodingsDecode :=
  ⟨rfl, rfl, rfl, rfl, rfl, rfl, rfl, rfl, rfl, rfl, rfl, rfl, rfl, rfl, rfl, rfl, rfl, rfl, rfl, rfl, rfl⟩

end Sys2Proof
end

section
/-! PROOFS. The decoder and the encoder are inverse (R60 to R66): what a shape reads from operand bytes, the two transcriptions
of the opcode map against each other, and the lengths and pairs of the metadata table (R63, R71). -/

namespace Sys2Proof

open Sys2Proof.Machine

/-! ### A shape reads an instruction from its operand bytes -/

/-- The operand bytes a shape consumes, and the instruction it makes of them (R61, R62). -/
inductive Shape.Reads : Shape → List Byte → Instr → Prop where
  | bare (i : Instr) : Reads (.bare i) [] i
  | byte (f : Byte → Instr) (d : Byte) : Reads (.byte f) [d] (f d)
  | word (f : Addr → Instr) (a16 : Addr) : Reads (.word f) (wordBytes a16) (f a16)

variable {op : Byte} {shape : Shape} {operands bytes rest : List Byte} {i : Instr} {m : Mnemonic} {k : Mode}

theorem wordBytes_operandWord (lo hi : Byte) : wordBytes (operandWord lo hi) = [lo, hi] := by
  rw [operandWord_eq_word]
  exact congrArg₂ (fun a b => [a, b]) (lowByte_word hi lo) (highByte_word hi lo)

theorem Shape.reads_word_operandWord (f : Addr → Instr) (lo hi : Byte) :
    (Shape.word f).Reads [lo, hi] (f (operandWord lo hi)) :=
  wordBytes_operandWord lo hi ▸ .word f (operandWord lo hi)

theorem decode_of_reads (row : decodeOpcode op = some shape) (reads : shape.Reads operands i) (rest : List Byte) :
    decode (op :: operands ++ rest) = .ok (i, rest) := by
  cases reads with
  | bare | byte => simp [decode, row]
  | word f a16 =>
    have value : operandWord (lowByte a16) (highByte a16) = a16 := word_high_low a16
    change decode (op :: lowByte a16 :: highByte a16 :: rest) = _
    simp [decode, row, value]

/-- What the decoder accepts is an opcode byte with a row, operand bytes its shape reads, and the rest. -/
theorem decode_ok (h : decode bytes = .ok (i, rest)) :
    ∃ op shape operands, decodeOpcode op = some shape ∧ shape.Reads operands i ∧ bytes = op :: operands ++ rest := by
  cases bytes with
  | nil => cases h
  | cons op tail =>
    simp only [decode] at h
    split at h
    · cases h
    · next j row => cases h; exact ⟨op, _, [], row, .bare _, rfl⟩
    · next f row =>
      split at h
      · next d tail => cases h; exact ⟨op, _, [d], row, .byte f d, rfl⟩
      · cases h
    · next f row =>
      split at h
      · next lo hi tail => cases h; exact ⟨op, _, [lo, hi], row, Shape.reads_word_operandWord f lo hi, rfl⟩
      · cases h

/-! ### The decoder's map against the encoder's table (R66) -/

/-- The lookup, comparing opcode bytes as numbers. -/
theorem decodeOpcode_eq_find? (op : Byte) :
    decodeOpcode op = (opcodeMap.find? fun row => row.1.toNat.beq op.toNat).map (·.2) := by
  have same (row : Byte × Shape) : (row.1 == op) = row.1.toNat.beq op.toNat := by
    rw [Bool.eq_iff_iff, beq_iff_eq, Nat.beq_eq, BitVec.toNat_eq]
  simp only [decodeOpcode, same]

/-- The row of an instruction's opcode byte reads the instruction from its operand bytes. The lookup is rewritten to one in
each grid row, by number: this is what keeps the 151 evaluations cheap. -/
theorem decodeOpcode_opcode (i : Instr) :
    ∃ shape, decodeOpcode i.opcode = some shape ∧ shape.Reads i.operand.bytes i := by
  simp only [decodeOpcode_eq_find?, opcodeMap, List.find?_append]
  cases i <;> (dsimp only [Instr.opcode]; exact ⟨_, rfl, by constructor⟩)

theorem mem_opcodeMap (row : decodeOpcode op = some shape) : (op, shape) ∈ opcodeMap := by
  obtain ⟨⟨op', shape'⟩, found, rfl⟩ := Option.map_eq_some_iff.1 row
  obtain rfl : op' = op := by simpa using List.find?_some found
  exact List.mem_of_find?_eq_some found

/-- An instruction that some row reads is one of that row: the encoder gives it the row's opcode byte. -/
theorem encode_of_row {row : Byte × Shape} (mem : row ∈ opcodeMap) (reads : row.2.Reads operands i) :
    encode i = row.1 :: operands := by
  fin_cases mem <;> (cases reads; rfl)

/-- The map has a row for exactly the bytes that R67 does not list. -/
theorem opcodes_eq_filter :
    opcodeMap.map (·.1.toNat) = (List.range 256).filter (· ∉ illegalOpcodes.map (·.toNat)) := by
  decide +kernel

theorem exists_row_iff (op : Byte) : (∃ row ∈ opcodeMap, row.1 = op) ↔ op ∉ illegalOpcodes := by
  calc (∃ row ∈ opcodeMap, row.1 = op)
      ↔ op.toNat ∈ opcodeMap.map (·.1.toNat) := by simp only [List.mem_map, BitVec.toNat_inj]
    _ ↔ op.toNat < 256 ∧ op.toNat ∉ illegalOpcodes.map (·.toNat) := by
      rw [opcodes_eq_filter, List.mem_filter, List.mem_range, decide_eq_true_iff]
    _ ↔ op ∉ illegalOpcodes := by
      rw [List.mem_map_of_injective BitVec.toNat_injective, and_iff_right op.isLt]

theorem decodeOpcode_isSome_iff (op : Byte) : (decodeOpcode op).isSome ↔ op ∉ illegalOpcodes := by
  simp only [decodeOpcode, Option.isSome_map, List.find?_isSome, beq_iff_eq, exists_row_iff]

/-! ### The inverse laws -/

/-- Settles O5: the row of the instruction's opcode byte reads it back. -/
theorem decodeOfEncodeIsTheInstruction : Obligations.DecodeOfEncodeIsTheInstruction := by
  intro i rest
  obtain ⟨shape, row, reads⟩ := decodeOpcode_opcode i
  exact decode_of_reads row reads rest

theorem eq_encode_append_of_decode (h : decode bytes = .ok (i, rest)) : bytes = encode i ++ rest := by
  obtain ⟨op, shape, operands, row, reads, rfl⟩ := decode_ok h
  rw [encode_of_row (mem_opcodeMap row) reads]

/-- No operand bytes are illegal: whatever the two bytes after the opcode, a shape reads an instruction from the first of
them it needs. -/
theorem Shape.exists_reads (shape : Shape) (d1 d2 : Byte) :
    ∃ operands tail i, operands ++ tail = [d1, d2] ∧ shape.Reads operands i := by
  cases shape with
  | bare i => exact ⟨[], [d1, d2], i, rfl, .bare i⟩
  | byte f => exact ⟨[d1], [d2], f d1, rfl, .byte f d1⟩
  | word f => exact ⟨[d1, d2], [], _, rfl, Shape.reads_word_operandWord f d1 d2⟩

/-- Settles O6: the row that was found reads the operand bytes, and the encoder gives its instructions that opcode byte. -/
theorem encodeOfDecodeIsTheBytes : Obligations.EncodeOfDecodeIsTheBytes := by
  refine ⟨fun bytes rest i => eq_encode_append_of_decode, fun op d1 d2 rest legal => ?_⟩
  obtain ⟨shape, row⟩ := Option.isSome_iff_exists.1 ((decodeOpcode_isSome_iff op).2 legal)
  obtain ⟨operands, tail, i, whole, reads⟩ := shape.exists_reads d1 d2
  have accepted := decode_of_reads row reads (tail ++ rest)
  rw [List.cons_append, ← List.append_assoc, whole] at accepted
  exact ⟨i, tail ++ rest, accepted, (List.cons.inj (encode_of_row (mem_opcodeMap row) reads)).1⟩

/-! ### The length of an encoding (R60, R63) -/

theorem MemForm.bytes_length (m : MemForm) : m.bytes.length = m.mode.operandBytes := by
  cases m <;> rfl

theorem Operand.bytes_length (o : Operand) : o.bytes.length = o.mode.operandBytes := by
  cases o with
  | mem m => exact m.bytes_length
  | imp | acc | imm | ind | rel => rfl

theorem length_encode (i : Instr) : (encode i).length = i.length := by
  rw [encode, List.length_cons, Operand.bytes_length, Instr.length, Instr.mode, Nat.add_comm]

theorem one_add_operandBytes (k : Mode) : 1 + k.operandBytes = modeLength k := by cases k <;> rfl

theorem modeLength_le (k : Mode) : modeLength k ≤ 3 := by cases k <;> decide

/-! ### The metadata table (R71) -/

/-- The mnemonic and the mode of the instructions a shape reads, taken at operand 0. -/
def Shape.info : Shape → Mnemonic × Mode
  | .bare i => (i.mnemonic, i.mode)
  | .byte f => ((f 0).mnemonic, (f 0).mode)
  | .word f => ((f 0).mnemonic, (f 0).mode)

theorem opcodeInfo_eq_map (op : Byte) : opcodeInfo op = (decodeOpcode op).map Shape.info := by
  unfold opcodeInfo
  rcases decodeOpcode op with _ | (_ | _ | _) <;> rfl

/-- In no row do the mnemonic and the mode depend on the operand bytes. -/
theorem info_of_row {row : Byte × Shape} (mem : row ∈ opcodeMap) (reads : row.2.Reads operands i) :
    row.2.info = (i.mnemonic, i.mode) := by
  fin_cases mem <;> (cases reads; rfl)

theorem opcodeInfo_opcode (i : Instr) : opcodeInfo i.opcode = some (i.mnemonic, i.mode) := by
  obtain ⟨shape, row, reads⟩ := decodeOpcode_opcode i
  rw [opcodeInfo_eq_map, row, Option.map_some, info_of_row (mem_opcodeMap row) reads]

/-- Settles O8: the mode gives the number of operand bytes, and the opcode byte gives the mode through the metadata table. -/
theorem modeFixesTheLength : Obligations.ModeFixesTheLength := by
  have length (i : Instr) : (encode i).length = modeLength i.mode :=
    (length_encode i).trans (one_add_operandBytes i.mode)
  refine ⟨fun i => ⟨length i, Nat.succ_pos _, length i ▸ modeLength_le i.mode⟩, fun i => one_add_operandBytes i.mode,
    fun i j same => ?_⟩
  have opcode : i.opcode = j.opcode := Option.some.inj same
  have info : (i.mnemonic, i.mode) = (j.mnemonic, j.mode) :=
    Option.some.inj (by rw [← opcodeInfo_opcode, ← opcodeInfo_opcode, opcode])
  obtain ⟨mnemonic, mode⟩ := Prod.mk.inj info
  exact ⟨mnemonic, mode, by rw [length, length, mode]⟩

/-! ### Legal pairs (R71) -/

/-- The rows of the map whose instructions have a given mnemonic and mode. -/
def opcodeRows (p : Mnemonic × Mode) : List (Byte × Shape) := opcodeMap.filter (·.2.info = p)

theorem mem_opcodeRows {row : Byte × Shape} {p : Mnemonic × Mode} :
    row ∈ opcodeRows p ↔ row ∈ opcodeMap ∧ row.2.info = p := by
  rw [opcodeRows, List.mem_filter, decide_eq_true_iff]

/-- Each filled entry of the table by mnemonic and mode is one byte of the grid (R66). -/
theorem length_opcodeRows (m : Mnemonic) : ∀ k ∈ m.modes, (opcodeRows (m, k)).length = 1 := by
  cases m <;> decide

theorem opcodeRows_eq_singleton (legal : legalPair m k = true) : ∃ row, opcodeRows (m, k) = [row] :=
  List.length_eq_one_iff.1 (length_opcodeRows m k (List.contains_iff_mem.1 legal))

theorem Shape.exists_instr (shape : Shape) : ∃ operands i, shape.Reads operands i := by
  obtain ⟨operands, -, i, -, reads⟩ := shape.exists_reads 0 0
  exact ⟨operands, i, reads⟩

theorem Instr.wellFormed_eq_true (i : Instr) : i.wellFormed = true := by cases i <;> rfl

theorem legalPair_of_mem_opcodeRows {row : Byte × Shape} (mem : row ∈ opcodeRows (m, k)) : legalPair m k = true := by
  obtain ⟨inMap, info⟩ := mem_opcodeRows.1 mem
  obtain ⟨operands, i, reads⟩ := row.2.exists_instr
  obtain ⟨rfl, rfl⟩ := Prod.mk.inj ((info_of_row inMap reads).symm.trans info)
  exact i.wellFormed_eq_true

theorem opcodeInfo_of_row {row : Byte × Shape} (mem : row ∈ opcodeMap) : opcodeInfo row.1 = some row.2.info := by
  obtain ⟨operands, i, reads⟩ := row.2.exists_instr
  obtain ⟨opcode, -⟩ := List.cons.inj (encode_of_row mem reads)
  rw [← opcode, opcodeInfo_opcode, info_of_row mem reads]

theorem opcodeInfo_eq_some_iff {p : Mnemonic × Mode} : opcodeInfo op = some p ↔ ∃ row ∈ opcodeRows p, row.1 = op := by
  constructor
  · intro h
    obtain ⟨shape, row, info⟩ := Option.map_eq_some_iff.1 (opcodeInfo_eq_map op ▸ h)
    exact ⟨(op, shape), mem_opcodeRows.2 ⟨mem_opcodeMap row, info⟩, rfl⟩
  · rintro ⟨row, mem, rfl⟩
    obtain ⟨inMap, rfl⟩ := mem_opcodeRows.1 mem
    exact opcodeInfo_of_row inMap

/-- Settles O9: a legal pair has exactly one row of the map, and every row's pair is legal. -/
theorem legalPairsAreTheOpcodeRows : Obligations.LegalPairsAreTheOpcodeRows := by
  simp only [Obligations.LegalPairsAreTheOpcodeRows, opcodeInfo_eq_some_iff]
  refine ⟨fun m k => ⟨fun legal => ?_, fun ⟨_, _, mem, _⟩ => legalPair_of_mem_opcodeRows mem⟩, ?_⟩
  · obtain ⟨row, only⟩ := opcodeRows_eq_singleton legal
    exact ⟨row.1, row, only ▸ List.mem_singleton_self row, rfl⟩
  · rintro _ _ ⟨m, k⟩ ⟨row, mem, rfl⟩ ⟨row', mem', rfl⟩
    obtain ⟨_, only⟩ := opcodeRows_eq_singleton (legalPair_of_mem_opcodeRows mem)
    rw [only, List.mem_singleton] at mem mem'
    rw [mem, mem']

end Sys2Proof
end

section
/-! PROOFS. The addressing modes (R86 to R102): which mnemonics use a mode and what bytes their instructions have, the effective
addresses and targets in numbers, and the accumulator shifts. -/

namespace Sys2Proof.Machine

open Sys2Proof.Laws

variable {m : Mnemonic} {i : Instr} {o : Operand} {s t : State}

/-! ### What the operand of an instruction fixes -/

theorem encode_of_operand (h : i.operand = o) : encode i = i.opcode :: o.bytes := h ▸ rfl

theorem mode_mem_modes_of_operand (h : i.operand = o) : o.mode ∈ i.mnemonic.modes :=
  h ▸ List.contains_iff_mem.1 i.wellFormed_eq_true

/-! ### The mnemonics that use a mode (R66) -/

theorem zpy_mem_modes_iff : Mode.zpy ∈ m.modes ↔ m = .ldx ∨ m = .stx := by cases m <;> decide

theorem rel_mem_modes_iff : Mode.rel ∈ m.modes ↔ m ∈ [Mnemonic.bcc, .bcs, .beq, .bmi, .bne, .bpl, .bvc, .bvs] := by
  cases m <;> decide

theorem imp_mem_modes_iff :
    Mode.imp ∈ m.modes ↔ m ∈ [Mnemonic.brk, .clc, .cld, .cli, .clv, .dex, .dey, .inx, .iny, .nop, .pha, .php, .pla, .plp, .rti,
      .rts, .sec, .sed, .sei, .tax, .tay, .tsx, .txa, .txs, .tya] := by
  cases m <;> decide

theorem acc_mem_modes_iff : Mode.acc ∈ m.modes ↔ m ∈ shiftMnemonics := by cases m <;> decide

theorem imm_mem_modes_iff :
    Mode.imm ∈ m.modes ↔ m ∈ [Mnemonic.adc, .and, .cmp, .cpx, .cpy, .eor, .lda, .ldx, .ldy, .ora, .sbc] := by
  cases m <;> decide

/-! ### Addresses in numbers -/

theorem zeroPage_add_toNat (zp index : Byte) : (zeroPage (zp + index)).toNat = (zp.toNat + index.toNat) % 256 := by
  rw [zeroPage_toNat, BitVec.toNat_add]

/-- An indexed sum carries into the high byte and wraps at 16 bits (R92, R93, R96). -/
theorem add_setWidth_toNat (base : Addr) (index : Byte) :
    (base + index.setWidth 16).toNat = (base.toNat + index.toNat) % 65536 := by
  rw [BitVec.toNat_add, BitVec.toNat_setWidth_of_le (by decide)]

theorem toNat_eq_lowByte_add_highByte (w : Addr) : w.toNat = (lowByte w).toNat + 256 * (highByte w).toNat := by
  rw [lowByte_toNat, highByte_toNat, Nat.mod_add_div]

/-- `p` and `q` are the cells of the pointer's two bytes: both in page zero, whatever the zero-page address (R95, R96). -/
theorem zeroPagePointer_toNat {zp : Byte} {p q : Addr} (hp : p.toNat = zp.toNat) (hq : q.toNat = (zp.toNat + 1) % 256) :
    (zeroPagePointer s zp).toNat = 256 * (s.read q).toNat + (s.read p).toNat := by
  obtain rfl : p = zeroPage zp := BitVec.eq_of_toNat_eq (by rw [hp, zeroPage_toNat])
  obtain rfl : q = zeroPage (zp + 1) := BitVec.eq_of_toNat_eq (by rw [hq, zeroPage_add_toNat]; rfl)
  rw [zeroPagePointer, word_toNat, Nat.mul_comm]

/-- The displacement counts as two's complement, and the sum wraps at 16 bits (R97). -/
theorem branchTarget_toNat (s : State) (d : Byte) :
    ((branchTarget s d).toNat : Int) = (s.pc.toNat + d.toInt) % 65536 := by
  rw [branchTarget, BitVec.signExtend, BitVec.toNat_add, BitVec.toNat_ofInt]
  omega

/-! ### The addressing obligations -/

/-- Settles O22: the index is added before the address is widened to 16 bits. -/
theorem zeroPageModesStayInPageZero : Obligations.ZeroPageModesStayInPageZero := fun s _ zp =>
  ⟨fun h => ⟨encode_of_operand h, zeroPage_toNat zp⟩,
    fun h => ⟨encode_of_operand h, zeroPage_add_toNat zp s.x⟩,
    fun h => ⟨encode_of_operand h, zeroPage_add_toNat zp s.y, zpy_mem_modes_iff.1 (mode_mem_modes_of_operand h)⟩⟩

/-- Settles O23: the index is widened to 16 bits before it is added. -/
theorem absoluteModesAreSixteenBit : Obligations.AbsoluteModesAreSixteenBit := fun s _ a16 =>
  ⟨fun h => ⟨encode_of_operand h, rfl, toNat_eq_lowByte_add_highByte a16⟩,
    fun h => ⟨encode_of_operand h, add_setWidth_toNat a16 s.x⟩,
    fun h => ⟨encode_of_operand h, add_setWidth_toNat a16 s.y⟩⟩

/-- Settles O25: the address is the pointer at the zero-page sum. -/
theorem indexedIndirectPointerInPageZero : Obligations.IndexedIndirectPointerInPageZero := by
  intro s i zp p q h hp hq
  rw [← BitVec.toNat_add] at hp
  exact ⟨encode_of_operand h, zeroPagePointer_toNat hp (hp ▸ hq)⟩

/-- Settles O26: Y is added to the pointer at the operand byte. -/
theorem indirectIndexedAddsYToThePointer : Obligations.IndirectIndexedAddsYToThePointer := by
  intro s i zp p q h hp hq
  refine ⟨encode_of_operand h, ?_⟩
  rw [effectiveAddress, add_setWidth_toNat, zeroPagePointer_toNat hp hq]

/-- Settles O27: the two's complement value of the byte is the one of `branchTarget_toNat`. -/
theorem relativeTargetIsSignedAndWraps : Obligations.RelativeTargetIsSignedAndWraps := by
  intro s i b h
  refine ⟨rel_mem_modes_iff.1 (mode_mem_modes_of_operand h), encode_of_operand h, ?_⟩
  have signed : b.toInt = if b.toNat < 128 then (b.toNat : Int) else b.toNat - 256 := by
    rw [BitVec.toInt_eq_toNat_cond]
    exact if_congr (by omega) rfl rfl
  rw [branchTarget_toNat, signed]

/-! ### Shifts of the accumulator (R87, R140) -/

/-- The shift unit computes R141 to R144. -/
theorem shiftSpec_shift (op : ShiftOp) (v : Byte) (c : Bool) : ShiftSpec op v c (shift op v c).1 (shift op v c).2 := by
  have top : v.getLsbD 7 = decide (128 ≤ v.toNat) := BitVec.msb_eq_decide v
  have bottom : v.getLsbD 0 = decide (v.toNat % 2 = 1) := Nat.testBit_zero v.toNat
  cases op with
  | asl => exact ⟨by simp [shift, Nat.shiftLeft_eq, Nat.mul_comm], top⟩
  | lsr => exact ⟨by simp [shift, Nat.shiftRight_eq_div_pow], bottom⟩
  | rol => exact ⟨by revert v c; decide, top⟩
  | ror => exact ⟨by revert v c; decide, bottom⟩

theorem shiftAccPost_of_shiftAcc {op : ShiftOp} (h : shiftAcc op s = .next t) : ShiftAccPost op s t := by
  obtain rfl := shiftAcc_next h
  refine ⟨?_, ((writesReg_setReg s .a _).setFlag .c _).setZN _, showsZN_setZN _ _⟩
  simpa using shiftSpec_shift op s.a (s.flag .c)

/-- An instruction in Accumulator mode is one of the four shifts of `A`, the same in every state (R87). -/
theorem exec_eq_shiftAcc (h : i.operand = .acc) : ∃ op, ∀ s, exec i s = shiftAcc op s := by
  have shifts : i.mnemonic ∈ [Mnemonic.asl, .lsr, .rol, .ror] := acc_mem_modes_iff.1 (mode_mem_modes_of_operand h)
  simp only [exec_eq_execBy, h]
  generalize i.mnemonic = m at shifts
  fin_cases shifts
  · exact ⟨.asl, fun _ => rfl⟩
  · exact ⟨.lsr, fun _ => rfl⟩
  · exact ⟨.rol, fun _ => rfl⟩
  · exact ⟨.ror, fun _ => rfl⟩

/-- Settles O28: the metadata table gives the mnemonics, and an accumulator instruction is a `shiftAcc`. -/
theorem operandlessAndImmediateModes : Obligations.OperandlessAndImmediateModes := by
  intro i value
  refine ⟨fun h => ⟨encode_of_operand h, imp_mem_modes_iff.1 (mode_mem_modes_of_operand h)⟩,
    fun h => ⟨encode_of_operand h, acc_mem_modes_iff.1 (mode_mem_modes_of_operand h), fun s => ?_⟩,
    fun h => ⟨encode_of_operand h, imm_mem_modes_iff.1 (mode_mem_modes_of_operand h)⟩⟩
  obtain ⟨op, shifts⟩ := exec_eq_shiftAcc h
  exact ⟨op, _, shifts s, shiftAccPost_of_shiftAcc rfl⟩

end Sys2Proof.Machine
end

section
/-! PROOFS. The fetch against the decoder (R80, R82, R84): where the bytes at `PC` decode and lie below the window's end, the fetch
gives the decoded instruction and moves `PC` past its bytes. -/

namespace Sys2Proof.Machine

variable {s : State} {i : Instr} {shape : Shape} {operands rest : List Byte}

@[simp] theorem State.setPc_setPc (s : State) (v w : Addr) : (s.setPc v).setPc w = s.setPc w := rfl

@[simp] theorem State.setPc_self (s : State) : s.setPc s.pc = s := rfl

@[simp] theorem State.bytesAt_setPc (s : State) (w addr : Addr) (n : Nat) :
    (s.setPc w).bytesAt addr n = s.bytesAt addr n := by
  induction n generalizing addr with
  | zero => rfl
  | succ n ih => exact congrArg (s.read addr :: ·) (ih (addr + 1))

/-- Below the window's end `PC + 1` cannot wrap (R82). -/
theorem pc_succ_toNat (h : s.pc.toNat < s.codeEnd.toNat) : (s.pc + 1).toNat = s.pc.toNat + 1 :=
  BitVec.toNat_add_of_lt (Nat.lt_of_le_of_lt h s.codeEnd.isLt)

/-- Operand bytes at `PC` that a shape reads are fetched, in stream order (R61, R101). -/
theorem fetchOperand_of_reads (reads : shape.Reads operands i) (bytes : s.bytesAt s.pc 2 = operands ++ rest)
    (fits : s.pc.toNat + operands.length ≤ s.codeEnd.toNat) :
    fetchOperand shape s = .ok (i, s.setPc (s.pc + BitVec.ofNat 16 operands.length)) := by
  cases reads with
  | bare => simp [fetchOperand]
  | byte f d =>
    obtain ⟨rfl, -⟩ := List.cons.inj bytes
    simp [fetchOperand, fetchByte_below_end s fits]
  | word f a16 =>
    have first : s.pc.toNat < s.codeEnd.toNat := Nat.lt_of_succ_lt fits
    have second : (s.pc + 1).toNat < s.codeEnd.toNat := by rw [pc_succ_toNat first]; exact fits
    obtain ⟨lo, tail⟩ := List.cons.inj bytes
    obtain ⟨hi, -⟩ := List.cons.inj tail
    have value : operandWord (s.read s.pc) (s.read (s.pc + 1)) = a16 := by
      rw [lo, hi]; exact word_high_low a16
    simp only [fetchOperand, fetchByte_below_end s first, fetchByte_below_end (s.setPc (s.pc + 1)) second, State.setPc_pc,
      State.read_setPc, State.setPc_setPc, value, BitVec.add_assoc]
    rfl

theorem fetchInstr_of_decode (h : decode (s.bytesAt s.pc 3) = .ok (i, rest))
    (fits : s.pc.toNat + i.length ≤ s.codeEnd.toNat) :
    fetchInstr s = .ok (i, s.setPc (s.pc + BitVec.ofNat 16 i.length)) := by
  obtain ⟨op, shape, operands, row, reads, bytes⟩ := decode_ok h
  obtain ⟨opcode, tail⟩ := List.cons.inj bytes
  have length : i.length = operands.length + 1 := by
    rw [← length_encode, encode_of_row (mem_opcodeMap row) reads, List.length_cons]
  have first : s.pc.toNat < s.codeEnd.toNat := by omega
  have operand := fetchOperand_of_reads (s := s.setPc (s.pc + 1)) reads ((State.bytesAt_setPc ..).trans tail)
    (by rw [State.setPc_pc, State.setPc_codeEnd, pc_succ_toNat first]; omega)
  have past : s.pc + 1 + BitVec.ofNat 16 operands.length = s.pc + BitVec.ofNat 16 i.length := by
    rw [length, BitVec.ofNat_add, BitVec.add_assoc, BitVec.add_comm 1]; rfl
  simp only [fetchInstr, fetchByte_below_end s first, opcode, row, operand, State.setPc_setPc, State.setPc_pc, past]

/-- Settles O11: a step of a run that has not ended executes what was fetched, and that is the decoded instruction. -/
theorem stepRunsTheDecodedInstruction : Obligations.StepRunsTheDecodedInstruction := by
  intro s i rest running h fits
  refine ⟨i.wellFormed_eq_true, (length_encode i).symm, ?_⟩
  rw [step_running s running, fetchInstr_of_decode h fits]

end Sys2Proof.Machine
end

section
/-! PROOFS. Loads, stores and transfers (R110 to R124): the bytes of each form, and what its meaning writes. -/

namespace Sys2Proof.Machine

variable {i : Instr} {bytes : List Byte} {s : State}

theorem loadPost_setReg_setZN (s : State) (q : Reg) (v : Byte) : LoadPost q v s ((s.setReg q v).setZN v) :=
  ⟨(writesReg_setReg s q v).setZN v, showsZN_setZN _ v⟩

/-- An instruction whose meaning is a load, or a transfer with flags, completes as one (R110, R118). -/
theorem runs_loadPost {q : Reg} {v : Byte} (encoded : encode i = bytes)
    (executed : exec i s = .next ((s.setReg q v).setZN v)) : Runs i bytes s (LoadPost q v s) :=
  ⟨encoded, _, executed, loadPost_setReg_setZN s q v⟩

/-- An instruction whose meaning is a store completes as one (R114). -/
theorem runs_writesCell {f : MemForm} {v : Byte} (encoded : encode i = bytes) (executed : exec i s = storeByte f v s) :
    Runs i bytes s (WritesCell (effectiveAddress s f) v [] s) :=
  ⟨encoded, _, executed, writesCell_write s (effectiveAddress s f) v⟩

/-- Settles O29: each form is a `loadReg` of its operand. -/
theorem loadsWriteTheirRegister : Obligations.LoadsWriteTheirRegister := by
  intro s d a16
  iterate 17 refine ⟨runs_loadPost rfl rfl, ?_⟩
  exact runs_loadPost rfl rfl

/-- Settles O30: each form is a `storeByte` of its register at its memory operand. -/
theorem storesWriteOneCell : Obligations.StoresWriteOneCell := by
  intro s d a16
  iterate 12 refine ⟨runs_writesCell rfl rfl, ?_⟩
  exact runs_writesCell rfl rfl

/-- Settles O31: five transfers are a `transfer` of their source, and TXS writes `S` alone. -/
theorem transfersCopyARegister : Obligations.TransfersCopyARegister := fun s =>
  ⟨runs_loadPost rfl rfl, runs_loadPost rfl rfl, runs_loadPost rfl rfl, runs_loadPost rfl rfl,
    ⟨rfl, _, rfl, rfl, frame_setSp s s.x, rfl, rfl, rfl⟩, runs_loadPost rfl rfl⟩

end Sys2Proof.Machine
end

section
/-! PROOFS. The memory transactions (R58, R114, R140, R184, R202): what a transaction list can hold, and memory after an
instruction as the replay of its list. -/

namespace Sys2Proof.Machine

open Sys2Proof.Laws

variable {m : Mnemonic} {o : Operand} {f : MemForm} {i : Instr} {s t : State} {l k : List Transaction} {n p : Nat}

/-! ### Lists of transactions -/

def Transaction.isWrite : Transaction → Bool
  | .write _ _ => true
  | .read _ _ => false

/-- Every read in the list shows the byte the cell holds in `s`, and at most `n` of the entries are writes. -/
structure Recording (s : State) (n : Nat) (l : List Transaction) : Prop where
  reads : ∀ addr v, .read addr v ∈ l → v = s.read addr
  writes : (l.filter Transaction.isWrite).length ≤ n

namespace Recording

theorem nil : Recording s n [] := ⟨fun _ _ h => absurd h List.not_mem_nil, Nat.zero_le n⟩

theorem read (s : State) (addr : Addr) : Recording s 0 [s.readTransaction addr] where
  reads _ _ h := by cases List.mem_singleton.1 h; rfl
  writes := Nat.le_refl 0

theorem write (s : State) (addr : Addr) (v : Byte) : Recording s 1 [.write addr v] where
  reads _ _ h := by cases List.mem_singleton.1 h
  writes := Nat.le_refl 1

theorem append (h : Recording s n l) (k' : Recording s p k) : Recording s (n + p) (l ++ k) where
  reads addr v mem := (List.mem_append.1 mem).elim (h.reads addr v) (k'.reads addr v)
  writes := by
    rw [List.filter_append, List.length_append]
    exact Nat.add_le_add h.writes k'.writes

/-- Reads before the list add no write. -/
theorem reads_append (h : Recording s 0 l) (k' : Recording s n k) : Recording s n (l ++ k) :=
  Nat.zero_add n ▸ h.append k'

theorem write_not_mem (h : Recording s 0 l) (addr : Addr) (v : Byte) : .write addr v ∉ l := fun mem =>
  Nat.not_succ_le_zero _ (h.writes.trans' (List.length_pos_of_mem (List.mem_filter.2 ⟨mem, rfl⟩)))

end Recording

theorem Memory.replay_of_no_write (none : ∀ addr v, .write addr v ∉ l) (mem : Memory) : mem.replay l = mem := by
  induction l with
  | nil => rfl
  | cons x rest ih =>
    cases x with
    | read addr v => exact ih fun a w h => none a w (List.mem_cons_of_mem _ h)
    | write addr v => exact absurd List.mem_cons_self (none addr v)

/-! ### The list of an instruction -/

/-- The number of writes of an access. -/
def Access.writeCount : Access → Nat
  | .nothing | .readOperand | .pop | .ret => 0
  | .store _ | .shiftCell _ | .addToCell _ | .pushA | .pushP => 1
  | .call => 2

theorem Access.writeCount_le (a : Access) : a.writeCount ≤ 2 := by
  cases a <;> simp [Access.writeCount]

/-- The transactions of an instruction as a function of its mnemonic and its operand, to go with `execBy`. -/
def transactionsBy (m : Mnemonic) (o : Operand) (s : State) : List Transaction :=
  match o with
  | .mem f => pointerReads s f ++ (cellTransactions s (effectiveAddress s f) (accessOf m) ++ stackTransactions s (accessOf m))
  | .ind ptr => [s.readTransaction ptr, s.readTransaction (ptr + 1)]
  | .imp => stackTransactions s (accessOf m)
  | .acc | .imm _ | .rel _ => []

theorem dataTransactions_eq_transactionsBy (i : Instr) (s : State) :
    dataTransactions i s = transactionsBy i.mnemonic i.operand s := by
  unfold dataTransactions
  cases i.operand with
  | mem f => exact List.append_assoc ..
  | imp | acc | imm | ind | rel => rfl

theorem recording_pointerReads (s : State) (f : MemForm) : Recording s 0 (pointerReads s f) := by
  cases f with
  | indx | indy => exact (Recording.read s _).append (.read s _)
  | zp | zpx | zpy | abs | absx | absy => exact .nil

theorem recording_stackTransactions (s : State) (a : Access) : Recording s a.writeCount (stackTransactions s a) := by
  cases a with
  | nothing | readOperand | store | shiftCell | addToCell => exact .nil
  | pushA | pushP => exact .write s _ _
  | pop => exact .read s _
  | call => exact (Recording.write s _ _).append (.write s _ _)
  | ret =>
    by_cases pending : 0 < s.jsrcnt
    · rw [stackTransactions, if_pos pending]
      exact (Recording.read s _).append (.read s _)
    · rw [stackTransactions, if_neg pending]
      exact .nil

/-- An access is at one cell or on the stack, not both. -/
theorem recording_cell_append_stack (s : State) (addr : Addr) (a : Access) :
    Recording s a.writeCount (cellTransactions s addr a ++ stackTransactions s a) := by
  cases a with
  | readOperand => exact .read s addr
  | store => exact .write s addr _
  | shiftCell | addToCell => exact (Recording.read s addr).append (.write s addr _)
  | nothing | pushA | pushP | pop | call | ret => exact recording_stackTransactions s _

theorem recording_transactionsBy (m : Mnemonic) (o : Operand) (s : State) :
    Recording s (accessOf m).writeCount (transactionsBy m o s) := by
  cases o with
  | mem f => exact (recording_pointerReads s f).reads_append (recording_cell_append_stack s _ _)
  | ind ptr => exact (Recording.read s ptr).reads_append ((Recording.read s _).reads_append .nil)
  | imp => exact recording_stackTransactions s _
  | acc | imm | rel => exact .nil

/-- The pointer reads of the resolver leave memory. -/
theorem Memory.replay_transactionsBy_mem (m : Mnemonic) (f : MemForm) (s : State) (mem : Memory) :
    mem.replay (transactionsBy m (.mem f) s) =
      mem.replay (cellTransactions s (effectiveAddress s f) (accessOf m) ++ stackTransactions s (accessOf m)) := by
  rw [transactionsBy, Memory.replay_append, Memory.replay_of_no_write (recording_pointerReads s f).write_not_mem]

/-! ### Memory after an instruction -/

/-- Where the access has no write, it is enough that memory stays as it was. -/
theorem mem_eq_replay_of_same (none : (accessOf m).writeCount = 0) (o : Operand) (same : t.mem = s.mem) :
    t.mem = s.mem.replay (transactionsBy m o s) :=
  same.trans (Memory.replay_of_no_write (none ▸ recording_transactionsBy m o s).write_not_mem s.mem).symm

theorem branchIf_mem {cond : Bool} {d : Byte} (h : branchIf cond d s = .next t) : t.mem = s.mem := by
  rw [branchIf_next h]
  cases cond <;> rfl

theorem execRts_mem (h : execRts s = .next t) : t.mem = s.mem := by
  rcases execRts_next h with ⟨-, rfl⟩ | ⟨-, rfl⟩ <;> rfl

/-- Stores, increments and decrements of a cell, and JSR have a memory operand (R66). -/
theorem exists_memForm (legal : o.mode ∈ m.modes) (writer : m ∈ [Mnemonic.sta, .stx, .sty, .inc, .dec, .jsr]) :
    ∃ f, o = .mem f := by
  cases o with
  | mem f => exact ⟨f, rfl⟩
  | imp | acc | imm | ind | rel =>
    fin_cases writer <;> simp [Operand.mode, Mnemonic.modes] at legal

theorem operand_eq_imp_of_mode (implied : o.mode = .imp) : o = .imp := by
  cases o with
  | imp => rfl
  | mem f => cases f <;> cases implied
  | acc | imm | ind | rel => cases implied

/-- Only a legal operand will do: an implied STA, say, would write a cell and list no access. -/
theorem execBy_mem (legal : o.mode ∈ m.modes) (h : execBy m o s = .next t) :
    t.mem = s.mem.replay (transactionsBy m o s) := by
  cases m
  case adc => rcases addWithCarry_next h with ⟨-, rfl⟩ | ⟨-, rfl⟩ <;> exact mem_eq_replay_of_same rfl o rfl
  case sbc => rcases subtractWithBorrow_next h with ⟨-, rfl⟩ | ⟨-, rfl⟩ <;> exact mem_eq_replay_of_same rfl o rfl
  case bcc | bcs | beq | bmi | bne | bpl | bvc | bvs => exact mem_eq_replay_of_same rfl o (branchIf_mem h)
  case rts => exact mem_eq_replay_of_same rfl o (execRts_mem h)
  case and | eor | ora | lda | ldx | ldy | tax | tay | tsx | txa | tya | txs | inx | iny | dex | dey | cmp | cpx | cpy | bit |
      clc | cld | cli | clv | sec | sed | sei | pla | plp | jmp | brk | rti | nop =>
    obtain rfl := Host.Outcome.next.inj h
    exact mem_eq_replay_of_same rfl o rfl
  case sta | stx | sty | inc | dec | jsr =>
    obtain ⟨f, rfl⟩ := exists_memForm legal (by decide)
    obtain rfl := Host.Outcome.next.inj h
    rw [Memory.replay_transactionsBy_mem]
    rfl
  case asl | lsr | rol | ror =>
    cases o with
    | mem f => rw [shiftMem_next h, Memory.replay_transactionsBy_mem]; rfl
    | imp | acc | imm | ind | rel => rw [shiftAcc_next h]; rfl
  case pha | php =>
    obtain rfl := operand_eq_imp_of_mode (List.mem_singleton.1 legal)
    obtain rfl := Host.Outcome.next.inj h
    rfl

/-- Settles O55: `execBy_mem`, and what a recording of the instruction's accesses can hold. -/
theorem memoryChangesOnlyByItsTransactions : Obligations.MemoryChangesOnlyByItsTransactions := by
  intro i s t h
  rw [exec_eq_execBy] at h
  rw [dataTransactions_eq_transactionsBy]
  have replayed := execBy_mem (mode_mem_modes_of_operand rfl) h
  have recorded := recording_transactionsBy i.mnemonic i.operand s
  refine ⟨replayed, recorded.reads, fun none addr => ?_, recorded.writes.trans (Access.writeCount_le _)⟩
  rw [Memory.replay_of_no_write none] at replayed
  exact congrArg (Memory.read · addr.toNat) replayed

end Sys2Proof.Machine
end

section
/-! PROOFS. The stack instructions (R130 to R134): what each pushes or pops, and a push instruction undone by its pop instruction. -/

namespace Sys2Proof.Machine

theorem pushPost_push (s : State) (v : Byte) : PushPost v s (s.push v) :=
  ⟨State.read_push_stackAddr s v, State.push_sp_toNat s v, frame_push s v, rfl, rfl, rfl⟩

/-- Settles O32: PHA and PHP are a `push`, PLA and PLP a `pop` whose value goes to `A` or to `P`. -/
theorem stackInstructionsPushAndPop : Obligations.StackInstructionsPushAndPop := by
  intro s
  have pla : Frame [.a] [.z, .n] [] s ((s.pop.2.setReg .a s.pop.1).setZN s.pop.1) :=
    ((frame_pop s).trans (frame_setReg _ .a _)).trans (frame_setZN _ _)
  have plp : Frame [] [.n, .v, .bit5, .b, .d, .i, .z, .c] [] s (s.pop.2.setP s.pop.1) :=
    (frame_pop s).trans (frame_setP _ _)
  exact ⟨⟨rfl, _, rfl, pushPost_push s s.a⟩, ⟨rfl, _, rfl, pushPost_push s s.p⟩,
    ⟨rfl, _, rfl, rfl, State.pop_sp_toNat s, showsZN_setZN _ _, pla, rfl, rfl, rfl⟩,
    ⟨rfl, _, rfl, rfl, State.pop_sp_toNat s, plp.mono_flags (by decide), rfl, rfl, rfl⟩⟩

/-- Settles O33: PLP and PLA take from `pop` the value and the pointer that `push` left. -/
theorem phpThenPlpRestoresPAndS : Obligations.PhpThenPlpRestoresPAndS := by
  refine fun s t u => ⟨fun push pop => ?_, fun push pop => ?_⟩
  · obtain rfl := Host.Outcome.next.inj push
    obtain rfl := Host.Outcome.next.inj pop
    exact ⟨State.pop_push_value s s.p, State.pop_push_sp s s.p⟩
  · obtain rfl := Host.Outcome.next.inj push
    obtain rfl := Host.Outcome.next.inj pop
    exact ⟨State.pop_push_value s s.a, State.pop_push_sp s s.a⟩

end Sys2Proof.Machine
end

section
/-! PROOFS. The shifts and rotates (R140 to R144): what each form writes, and why nine rotates, or a rotate and its opposite, restore
the operand and Carry. A rotate turns the ring of nine bits that the operand and Carry make by one place. -/

namespace Sys2Proof.Machine

open Sys2Proof.Laws

variable {i j : Instr} {bytes : List Byte} {op op' : ShiftOp} {d d' : Fin 9} {f : MemForm} {s t : State}
  {P : State → Prop} {get : State → Byte}

/-! ### Every form of the four shifts -/

theorem shiftMemPost_of_shiftMem (h : shiftMem op f s = .next t) : ShiftMemPost op (effectiveAddress s f) s t := by
  have computed := shiftSpec_shift op (memOperand s f) (s.flag .c)
  obtain rfl := shiftMem_next h
  generalize shift op (memOperand s f) (s.flag .c) = out at computed ⊢
  have written := ((writesCell_write s (effectiveAddress s f) out.1).setFlag .c out.2).setZN out.1
  rw [ShiftMemPost, written.value]
  exact ⟨by simpa [memOperand] using computed, written, showsZN_setZN _ _⟩

/-- An instruction whose meaning is a shift of `A` completes as one (R140). -/
theorem runs_shiftAccPost (encoded : encode i = bytes) (executed : exec i s = shiftAcc op s) :
    Runs i bytes s (ShiftAccPost op s) :=
  ⟨encoded, _, executed, shiftAccPost_of_shiftAcc rfl⟩

/-- An instruction whose meaning is a shift of a cell completes as one (R140). -/
theorem runs_shiftMemPost (encoded : encode i = bytes) (executed : exec i s = shiftMem op f s) :
    Runs i bytes s (ShiftMemPost op (effectiveAddress s f) s) :=
  ⟨encoded, _, executed, shiftMemPost_of_shiftMem rfl⟩

/-- Settles O34: each form is a `shiftAcc` or a `shiftMem` of its operation. -/
theorem shiftsMoveOneBit : Obligations.ShiftsMoveOneBit := fun _ _ _ =>
  ⟨runs_shiftAccPost rfl rfl, runs_shiftMemPost rfl rfl, runs_shiftMemPost rfl rfl,
    runs_shiftMemPost rfl rfl, runs_shiftMemPost rfl rfl,
    runs_shiftAccPost rfl rfl, runs_shiftMemPost rfl rfl, runs_shiftMemPost rfl rfl,
    runs_shiftMemPost rfl rfl, runs_shiftMemPost rfl rfl,
    runs_shiftAccPost rfl rfl, runs_shiftMemPost rfl rfl, runs_shiftMemPost rfl rfl,
    runs_shiftMemPost rfl rfl, runs_shiftMemPost rfl rfl,
    runs_shiftAccPost rfl rfl, runs_shiftMemPost rfl rfl, runs_shiftMemPost rfl rfl,
    runs_shiftMemPost rfl rfl, runs_shiftMemPost rfl rfl⟩

/-! ### The ring of nine bits -/

/-- `shift` on an operand and its Carry taken together. -/
def shiftPair (op : ShiftOp) (p : Byte × Bool) : Byte × Bool := shift op p.1 p.2

/-- The operand's bits at their own places and Carry at place 8. -/
def ringBit (p : Byte × Bool) (k : Fin 9) : Bool := if k = 8 then p.2 else p.1.getLsbD k

theorem ringBit_injective : Function.Injective ringBit := by
  intro p q h
  refine Prod.ext (BitVec.eq_of_getLsbD_eq fun k hk => ?_) (congrFun h 8)
  have place : (⟨k, by omega⟩ : Fin 9) ≠ 8 := Fin.ne_of_val_ne (Nat.ne_of_lt hk)
  simpa [ringBit, place] using congrFun h ⟨k, by omega⟩

/-- The operation turns the ring by `d` places. -/
def Turns (op : ShiftOp) (d : Fin 9) : Prop := ∀ p k, ringBit (shiftPair op p) k = ringBit p (k + d)

/-- ROL fills each place from the one below, which on the ring is eight places on, and place 0 from Carry (R143). -/
theorem turns_rol : Turns .rol 8 := by
  rintro ⟨v, c⟩ k
  fin_cases k <;> cases c <;> simp [ringBit, shiftPair, shift]

/-- ROR fills each place from the one above, and Carry from place 0 (R144). -/
theorem turns_ror : Turns .ror 1 := by
  rintro ⟨v, c⟩ k
  fin_cases k <;> cases c <;> simp [ringBit, shiftPair, shift]

/-- Two turns that add up to the whole ring undo each other. -/
theorem Turns.cancel (h : Turns op d) (h' : Turns op' d') (opposite : d' + d = 0) (p : Byte × Bool) :
    shiftPair op' (shiftPair op p) = p :=
  ringBit_injective <| funext fun k => by rw [h', h, add_assoc, opposite, add_zero]

theorem Turns.iterate (h : Turns op d) (n : ℕ) (p : Byte × Bool) (k : Fin 9) :
    ringBit ((shiftPair op)^[n] p) k = ringBit p (k + n • d) := by
  induction n generalizing p with
  | zero => rw [zero_nsmul, add_zero]; rfl
  | succ n ih => rw [Function.iterate_succ_apply, ih, h, succ_nsmul, add_assoc]

/-- Nine turns by the same number of places go round the whole ring. -/
theorem Turns.iterate_nine (h : Turns op d) (p : Byte × Bool) : (shiftPair op)^[9] p = p := by
  have round : ∀ d : Fin 9, 9 • d = 0 := by decide
  exact ringBit_injective <| funext fun k => by rw [h.iterate, round, add_zero]

/-! ### Instructions that shift one place -/

/-- The byte that `get` shows, and Carry. -/
def State.pair (get : State → Byte) (s : State) : Byte × Bool := (get s, s.flag .c)

/-- From every state with `P`, the instruction completes in one with `P` and has put the byte that `get` shows and Carry through
the shift unit. -/
def ShiftsPlace (P : State → Prop) (get : State → Byte) (op : ShiftOp) (i : Instr) : Prop :=
  ∀ s, P s → ∃ t, exec i s = .next t ∧ P t ∧ t.pair get = shiftPair op (s.pair get)

theorem ShiftsPlace.repeated (h : ShiftsPlace P get op i) (n : ℕ) {s : State} (start : P s) :
    ∃ t, repeatInstr n i s = .next t ∧ t.pair get = (shiftPair op)^[n] (s.pair get) := by
  induction n generalizing s with
  | zero => exact ⟨s, rfl, rfl⟩
  | succ n ih =>
    obtain ⟨u, first, holds, out⟩ := h s start
    obtain ⟨t, others, result⟩ := ih holds
    exact ⟨t, by rw [repeatInstr, first]; exact others, by rw [result, out]; rfl⟩

theorem ShiftsPlace.nine_restore (h : ShiftsPlace P get op i) (turns : Turns op d) (start : P s) :
    ∃ t, repeatInstr 9 i s = .next t ∧ get t = get s ∧ t.flag .c = s.flag .c := by
  obtain ⟨t, run, result⟩ := h.repeated 9 start
  exact ⟨t, run, Prod.mk.inj (result.trans (turns.iterate_nine _))⟩

theorem ShiftsPlace.opposite_restores (h : ShiftsPlace P get op i) (h' : ShiftsPlace P get op' j) (turns : Turns op d)
    (turns' : Turns op' d') (opposite : d' + d = 0) (start : P s) :
    ∃ t u, exec i s = .next t ∧ exec j t = .next u ∧ get u = get s ∧ u.flag .c = s.flag .c := by
  obtain ⟨t, first, holds, out⟩ := h s start
  obtain ⟨u, second, -, out'⟩ := h' t holds
  exact ⟨t, u, first, second, Prod.mk.inj (out'.trans (out ▸ turns.cancel turns' opposite _))⟩

/-- One place that an instruction rotates left and another rotates right. -/
theorem rotates_restore (rol : ShiftsPlace P get .rol i) (ror : ShiftsPlace P get .ror j) (start : P s) :
    (∃ t, repeatInstr 9 i s = .next t ∧ get t = get s ∧ t.flag .c = s.flag .c) ∧
    (∃ t, repeatInstr 9 j s = .next t ∧ get t = get s ∧ t.flag .c = s.flag .c) ∧
    (∃ t u, exec i s = .next t ∧ exec j t = .next u ∧ get u = get s ∧ u.flag .c = s.flag .c) ∧
    (∃ t u, exec j s = .next t ∧ exec i t = .next u ∧ get u = get s ∧ u.flag .c = s.flag .c) :=
  ⟨rol.nine_restore turns_rol start, ror.nine_restore turns_ror start,
    rol.opposite_restores ror turns_rol turns_ror rfl start, ror.opposite_restores rol turns_ror turns_rol rfl start⟩

theorem shiftsPlace_acc (executed : ∀ s, exec i s = shiftAcc op s) : ShiftsPlace (fun _ => True) State.a op i :=
  fun s _ => ⟨_, executed s, trivial, by simp [State.pair, shiftPair]⟩

/-- In the memory modes that ROL and ROR have (R66), X is all that the address takes from the state. -/
theorem effectiveAddress_of_same_x (mode : f.mode ∈ Mnemonic.rol.modes) (x : t.x = s.x) :
    effectiveAddress t f = effectiveAddress s f := by
  cases f with
  | zp | abs => rfl
  | zpx | absx => rw [effectiveAddress, effectiveAddress, x]
  | zpy | absy | indx | indy => simp [MemForm.mode, Mnemonic.modes] at mode

theorem shiftsPlace_cell (mode : f.mode ∈ Mnemonic.rol.modes) (executed : ∀ s, exec i s = shiftMem op f s) (addr : Addr) :
    ShiftsPlace (fun s => effectiveAddress s f = addr) (State.read · addr) op i := by
  rintro s rfl
  refine ⟨_, executed s, effectiveAddress_of_same_x mode rfl, ?_⟩
  simp [State.pair, shiftPair, State.read_write]

/-- Settles O35: `A` is one place, and so is the cell, whose address no rotate of it moves. -/
theorem nineRotatesRestore : Obligations.NineRotatesRestore := by
  refine ⟨fun s => rotates_restore (shiftsPlace_acc fun _ => rfl) (shiftsPlace_acc fun _ => rfl) trivial, ?_⟩
  intro s rol ror f rolMnemonic rolOperand rorMnemonic rorOperand
  have mode : f.mode ∈ Mnemonic.rol.modes := rolMnemonic ▸ mode_mem_modes_of_operand rolOperand
  have rolExec : ∀ s, exec rol s = shiftMem .rol f s := fun s => by rw [exec_eq_execBy, rolMnemonic, rolOperand]; rfl
  have rorExec : ∀ s, exec ror s = shiftMem .ror f s := fun s => by rw [exec_eq_execBy, rorMnemonic, rorOperand]; rfl
  exact rotates_restore (shiftsPlace_cell mode rolExec _) (shiftsPlace_cell mode rorExec _) rfl

end Sys2Proof.Machine
end

section
/-! PROOFS. The logic instructions and BIT (R150 to R154): a logic instruction is a load of `A` with the combined byte, and BIT
writes three flags and nothing else. -/

namespace Sys2Proof.Machine

variable {i : Instr} {bytes : List Byte} {m : Byte} {s t : State}

/-- Settles O36: each form leaves what a load of `A` with the combination of `A` and the operand leaves (R150). -/
theorem logicCombinesIntoA : Obligations.LogicCombinesIntoA := by
  intro s d a16
  iterate 23 refine ⟨runs_loadPost rfl rfl, ?_⟩
  exact runs_loadPost rfl rfl

/-- The three flag writes of BIT are at different flags, so each is the one read back. -/
theorem bitPost_of_bitTest (h : bitTest m s = .next t) : BitPost m s t := by
  obtain rfl := bitTest_next h
  refine ⟨((writesFlags_setFlag s .n _).setFlag .v _).setFlag .z _, ?negative, ?overflow, ?zero⟩
  case negative => simp
  case overflow => simp
  case zero => simp [beq_eq_decide]

/-- An instruction whose meaning is a BIT completes as one (R154). -/
theorem runs_bitPost (encoded : encode i = bytes) (executed : exec i s = bitTest m s) : Runs i bytes s (BitPost m s) :=
  ⟨encoded, _, executed, bitPost_of_bitTest rfl⟩

/-- Settles O37: both forms are a `bitTest` of their memory operand. -/
theorem bitTestsMemory : Obligations.BitTestsMemory := fun _ _ _ => ⟨runs_bitPost rfl rfl, runs_bitPost rfl rfl⟩

end Sys2Proof.Machine
end

section
/-! PROOFS. ADC and SBC (R160 to R169): the binary sum, the BCD digits, the choice that D makes between them, and an SBC that undoes
an ADC. -/

namespace Sys2Proof.Machine

open Sys2Proof.Laws

variable {i : Instr} {bytes : List Byte} {a m v : Byte} {out : Byte × Bool} {s t : State}

/-! ### The binary sum (R161) -/

theorem State.flag_c_addBinaryToA (s : State) (m : Byte) :
    (addBinaryToA m s).flag .c = (addBinary s.a m (s.flag .c)).carry := by simp [addBinaryToA]

theorem State.flag_v_addBinaryToA (s : State) (m : Byte) :
    (addBinaryToA m s).flag .v = (addBinary s.a m (s.flag .c)).overflow := by simp [addBinaryToA]

theorem binaryPost_addBinaryToA (m : Byte) (s : State) :
    BinaryPost (s.a.toNat + m.toNat + (s.flag .c).toNat) (s.a.toInt + m.toInt + (s.flag .c).toNat)
      (255 < s.a.toNat + m.toNat + (s.flag .c).toNat) s (addBinaryToA m s) :=
  ⟨addBinary_result_toNat .., State.flag_c_addBinaryToA s m, (State.flag_v_addBinaryToA s m).trans (addBinary_overflow ..),
    showsZN_setZN _ _, writesReg_addBinaryToA m s⟩

/-- Masking with 0x80 asks for bit 7 (R161). -/
theorem addBinary_overflow_eq_getLsbD (a m : Byte) (c : Bool) :
    (addBinary a m c).overflow = ((~~~(a ^^^ m)) &&& (a ^^^ (addBinary a m c).result)).getLsbD 7 := by
  have masked : ∀ q : Byte, (q &&& 0x80 != 0) = q.getLsbD 7 := by decide
  exact masked _

/-- Settles O40: the model's Overflow is the sign rule, and `addBinary_overflow` gives it as a range of the signed sum. -/
theorem addBinaryComputesSumCarryAndOverflow : Obligations.AddBinaryComputesSumCarryAndOverflow := fun s m =>
  ⟨binaryPost_addBinaryToA m s, (State.flag_v_addBinaryToA s m).trans (addBinary_overflow_eq_getLsbD ..)⟩

/-! ### BCD digits (R165) -/

theorem highNibble_toNat (b : Byte) : (b.extractLsb' 4 4).toNat = b.toNat / 16 := by
  rw [BitVec.extractLsb'_toNat, Nat.shiftRight_eq_div_pow]
  omega

theorem lowNibble_toNat (b : Byte) : (b.extractLsb' 0 4).toNat = b.toNat % 16 := by
  rw [BitVec.extractLsb'_toNat, Nat.shiftRight_zero]

theorem isBcd_iff_validBcd (b : Byte) : isBcd b = true ↔ ValidBcd b := by
  simp only [isBcd, ValidBcd, highNibble_toNat, lowNibble_toNat, Bool.and_eq_true, decide_eq_true_eq]

theorem isBcd_and_isBcd_iff : (isBcd a && isBcd m) = true ↔ ValidBcd a ∧ ValidBcd m := by
  rw [Bool.and_eq_true, isBcd_iff_validBcd, isBcd_iff_validBcd]

theorem bcdToNat_eq_decValue (b : Byte) : (bcdToNat b : Int) = decValue b := by
  rw [bcdToNat, decValue, highNibble_toNat, lowNibble_toNat, Nat.cast_add, Nat.cast_mul]
  rfl

theorem natToBcd_toNat {n : Nat} (h : n < 100) : (natToBcd n).toNat = 16 * (n / 10) + n % 10 := by
  have low : n % 10 < 2 ^ 4 := by omega
  have high : n / 10 < 2 ^ 4 := by omega
  rw [natToBcd, BitVec.toNat_append, BitVec.toNat_ofNat, BitVec.toNat_ofNat, Nat.mod_eq_of_lt low, Nat.mod_eq_of_lt high,
    ← Nat.shiftLeft_add_eq_or_of_lt low, Nat.shiftLeft_eq, Nat.mul_comm]

theorem isBcdOf_natToBcd {n : Nat} (h : n < 100) : IsBcdOf (natToBcd n) n := by
  rw [IsBcdOf, natToBcd_toNat h]
  push_cast
  rfl

/-- `DecimalADC` on valid operands (R166). -/
theorem decimalAdc_of_valid (valid : ValidBcd a ∧ ValidBcd m) (c : Bool) :
    IsBcdOf (decimalAdc a m c).1 ((decValue a + decValue m + c.toNat) % 100) ∧
      (decimalAdc a m c).2 = decide (99 < decValue a + decValue m + c.toNat) := by
  rw [decimalAdc, if_pos (isBcd_and_isBcd_iff.2 valid), ← bcdToNat_eq_decValue, ← bcdToNat_eq_decValue]
  refine ⟨?digits, ?carry⟩
  case digits => exact_mod_cast isBcdOf_natToBcd (Nat.mod_lt _ (by decide))
  case carry => exact decide_eq_decide.2 (by omega)

/-- `DecimalADC` where a nibble is above 9 (R168). -/
theorem decimalAdc_of_invalid (invalid : ¬(ValidBcd a ∧ ValidBcd m)) (c : Bool) :
    decimalAdc a m c = Config.bcdInvalid .adc a m c := if_neg (mt isBcd_and_isBcd_iff.1 invalid)

/-! ### ADC (R160, R162, R164) -/

theorem State.flag_c_decimalToA (s : State) (out : Byte × Bool) : (decimalToA out s).flag .c = out.2 := by
  simp [decimalToA]

theorem adcPost_of_addWithCarry (h : addWithCarry m s = .next t) : AdcPost m s t := by
  rcases addWithCarry_next h with ⟨decimal, rfl⟩ | ⟨binary, rfl⟩
  · refine ⟨fun binary => absurd (binary.symm.trans decimal) Bool.false_ne_true, fun _ => ?_⟩
    rw [State.flag_c_decimalToA]
    exact ⟨writesReg_decimalToA _ s, fun valid => decimalAdc_of_valid valid _, fun invalid => decimalAdc_of_invalid invalid _⟩
  · exact ⟨fun _ => binaryPost_addBinaryToA m s, fun decimal => absurd (decimal.symm.trans binary) (by decide)⟩

theorem addWithCarry_completes (m : Byte) (s : State) : ∃ t, addWithCarry m s = .next t := by
  unfold addWithCarry
  split <;> exact ⟨_, rfl⟩

theorem subtractWithBorrow_completes (m : Byte) (s : State) : ∃ t, subtractWithBorrow m s = .next t := by
  unfold subtractWithBorrow
  split <;> exact ⟨_, rfl⟩

/-- An instruction whose meaning is an addition with carry completes as one (R162). -/
theorem runs_adcPost (encoded : encode i = bytes) (executed : exec i s = addWithCarry m s) :
    Runs i bytes s (AdcPost m s) := by
  obtain ⟨t, completes⟩ := addWithCarry_completes m s
  exact ⟨encoded, t, executed.trans completes, adcPost_of_addWithCarry completes⟩

/-- Settles O38: each form is an `addWithCarry` of its operand. -/
theorem adcAddsWithCarry : Obligations.AdcAddsWithCarry := fun _ _ _ =>
  ⟨runs_adcPost rfl rfl, runs_adcPost rfl rfl, runs_adcPost rfl rfl, runs_adcPost rfl rfl, runs_adcPost rfl rfl,
    runs_adcPost rfl rfl, runs_adcPost rfl rfl, runs_adcPost rfl rfl⟩

/-! ### The choice by D (R160, R164) -/

/-- ADC and SBC in either mode: a decimal sum `out`, or a binary one with `v`. -/
def AddsInMode (out : Byte × Bool) (v : Byte) (s t : State) : Prop :=
  (s.flag .d = true ∧ t = decimalToA out s) ∨ (s.flag .d = false ∧ t = addBinaryToA v s)

namespace AddsInMode

theorem flag_d (h : AddsInMode out v s t) : t.flag .d = s.flag .d := by
  rcases h with ⟨-, rfl⟩ | ⟨-, rfl⟩
  · exact (writesReg_decimalToA out s).frame.flags .d (by decide)
  · exact (writesReg_addBinaryToA v s).frame.flags .d (by decide)

theorem mem (h : AddsInMode out v s t) : t.mem = s.mem := by
  rcases h with ⟨-, rfl⟩ | ⟨-, rfl⟩ <;> rfl

theorem writesReg (h : AddsInMode out v s t) (decimal : s.flag .d = true) : WritesReg .a t.a [.c] s t := by
  rcases h with ⟨-, rfl⟩ | ⟨binary, -⟩
  · exact writesReg_decimalToA out s
  · exact absurd (decimal.symm.trans binary) (by decide)

theorem a_eq (h : AddsInMode out v s t) (binary : s.flag .d = false) : t.a = (addBinary s.a v (s.flag .c)).result := by
  rcases h with ⟨decimal, -⟩ | ⟨-, rfl⟩
  · exact absurd (binary.symm.trans decimal) Bool.false_ne_true
  · rfl

end AddsInMode

theorem addWithCarry_a (h : addWithCarry m s = .next t) (binary : s.flag .d = false) :
    t.a = s.a + m + (if s.flag .c then 1 else 0) :=
  (AddsInMode.a_eq (addWithCarry_next h) binary).trans (addBinary_result ..)

theorem subtractWithBorrow_a (h : subtractWithBorrow m s = .next t) (binary : s.flag .d = false) :
    t.a = s.a - m - (if s.flag .c then 0 else 1) :=
  (AddsInMode.a_eq (subtractWithBorrow_next h) binary).trans (addBinary_complement_result ..)

theorem sourceByte_of_operandIs (h : OperandIs i s m) : sourceByte s i.operand = m := by
  rcases h with imm | ⟨f, mem, rfl⟩
  · rw [imm]; rfl
  · rw [mem]; rfl

theorem exec_eq_addWithCarry (adc : i.mnemonic = .adc) (operand : OperandIs i s m) : exec i s = addWithCarry m s := by
  rw [exec_eq_execBy, adc, ← sourceByte_of_operandIs operand]; rfl

theorem exec_eq_subtractWithBorrow (sbc : i.mnemonic = .sbc) (operand : OperandIs i s m) :
    exec i s = subtractWithBorrow m s := by
  rw [exec_eq_execBy, sbc, ← sourceByte_of_operandIs operand]; rfl

/-- Settles O41: both instructions are an `AddsInMode`, SBC with the operand complemented in binary mode. -/
theorem decimalModeIsChosenByDAndWritesAAndCarry : Obligations.DecimalModeIsChosenByDAndWritesAAndCarry := by
  intro i s m mnemonic operand
  rcases mnemonic with adc | sbc
  · obtain ⟨t, completes⟩ := addWithCarry_completes m s
    have adds : AddsInMode _ m s t := addWithCarry_next completes
    exact ⟨t, (exec_eq_addWithCarry adc operand).trans completes, adds.flag_d, adds.mem, adds.writesReg,
      fun binary _ => addWithCarry_a completes binary, fun _ sbc => absurd (adc.symm.trans sbc) (by decide)⟩
  · obtain ⟨t, completes⟩ := subtractWithBorrow_completes m s
    have adds : AddsInMode _ (m ^^^ 0xFF) s t := subtractWithBorrow_next completes
    exact ⟨t, (exec_eq_subtractWithBorrow sbc operand).trans completes, adds.flag_d, adds.mem, adds.writesReg,
      fun _ adc => absurd (adc.symm.trans sbc) (by decide), fun binary _ => subtractWithBorrow_a completes binary⟩

/-- Settles O42: the complement of the carry-in is a borrow of exactly what the carry-in added. -/
theorem sbcUndoesAdc : Obligations.SbcUndoesAdc := by
  intro s t u v binary adc sbc
  have stillBinary : (t.setFlag .c (!s.flag .c)).flag .d = false :=
    (State.flag_setFlag ..).trans ((AddsInMode.flag_d (addWithCarry_next adc)).trans binary)
  have borrow : (if !s.flag .c then 0 else 1 : Byte) = if s.flag .c then 1 else 0 := by cases s.flag .c <;> rfl
  calc u.a
      = t.a - v - (if !s.flag .c then 0 else 1) := by
        rw [subtractWithBorrow_a sbc stillBinary, State.flag_setFlag, if_pos rfl, State.setFlag_a]
    _ = s.a + v + (if s.flag .c then 1 else 0) - v - (if s.flag .c then 1 else 0) := by
        rw [borrow, addWithCarry_a adc binary]
    _ = s.a := by rw [sub_sub, add_assoc, add_sub_cancel_right]

end Sys2Proof.Machine
end

section
/-! PROOFS. The compares, increments and decrements (R180 to R190): a compare is three flag writes at different flags, and an
increment or decrement writes the exact sum modulo 256 of the old value and a delta read as a signed number. -/

namespace Sys2Proof.Machine

variable {i : Instr} {bytes : List Byte} {r m delta : Byte} {f : MemForm} {q : Reg} {s t : State}

/-! ### Bytes as numbers -/

theorem byte_toNat_add (v delta : Byte) : ((v + delta).toNat : Int) = (v.toNat + delta.toInt) % 256 := by
  rw [BitVec.toNat_add, BitVec.toInt_eq_toNat_cond]
  split <;> omega

theorem byte_toNat_sub (r m : Byte) : ((r - m).toNat : Int) = ((r.toNat : Int) - m.toNat) % 256 := by
  rw [BitVec.toNat_sub]
  omega

/-- Bit 7 of the wrapped difference (R180). -/
theorem getLsbD_seven_sub (r m : Byte) : (r - m).getLsbD 7 = decide (128 ≤ ((r.toNat : Int) - m.toNat) % 256) := by
  rw [← byte_toNat_sub]
  exact (BitVec.msb_eq_decide (r - m)).trans (decide_eq_decide.2 Nat.ofNat_le_cast.symm)

/-! ### Compares (R180 to R183) -/

theorem comparePost_of_compareReg (h : compareReg r m s = .next t) : ComparePost r m s t := by
  obtain rfl := compareReg_next h
  refine ⟨((writesFlags_setFlag s .z _).setFlag .c _).setFlag .n _, ?equal, ?notLess, ?negative⟩
  case equal => simp [beq_eq_decide, BitVec.toNat_eq]
  case notLess => simp [BitVec.le_def]
  case negative => simpa using getLsbD_seven_sub r m

/-- An instruction whose meaning is a compare completes as one (R180). -/
theorem runs_comparePost (encoded : encode i = bytes) (executed : exec i s = compareReg r m s) :
    Runs i bytes s (ComparePost r m s) :=
  ⟨encoded, _, executed, comparePost_of_compareReg rfl⟩

/-- Settles O43: each form is a `compareReg` of its register and its operand; no meaning asks for D or Carry. -/
theorem comparesSetThreeFlags : Obligations.ComparesSetThreeFlags := by
  intro s d a16
  iterate 13 refine ⟨runs_comparePost rfl rfl, ?_⟩
  exact runs_comparePost rfl rfl

/-! ### Increments and decrements (R184 to R190) -/

theorem cellDeltaPost_of_addToCell (h : addToCell delta f s = .next t) :
    CellDeltaPost delta.toInt (effectiveAddress s f) s t := by
  obtain rfl := addToCell_next h
  have written := (writesCell_write s (effectiveAddress s f) (memOperand s f + delta)).setZN (memOperand s f + delta)
  rw [CellDeltaPost, written.value]
  exact ⟨byte_toNat_add (memOperand s f) delta, written, showsZN_setZN _ _⟩

theorem regDeltaPost_of_addToReg (h : addToReg delta q s = .next t) : RegDeltaPost delta.toInt q s t := by
  obtain rfl := addToReg_next h
  obtain ⟨written, shown⟩ := loadPost_setReg_setZN s q (s.reg q + delta)
  rw [RegDeltaPost, written.value]
  exact ⟨byte_toNat_add (s.reg q) delta, written, shown⟩

/-- An instruction whose meaning adds to a cell completes as an increment or decrement of it (R185, R186). -/
theorem runs_cellDeltaPost (delta : Byte) (encoded : encode i = bytes) (executed : exec i s = addToCell delta f s) :
    Runs i bytes s (CellDeltaPost delta.toInt (effectiveAddress s f) s) :=
  ⟨encoded, _, executed, cellDeltaPost_of_addToCell rfl⟩

/-- An instruction whose meaning adds to a register completes as an increment or decrement of it (R187 to R190). -/
theorem runs_regDeltaPost (delta : Byte) (encoded : encode i = bytes) (executed : exec i s = addToReg delta q s) :
    Runs i bytes s (RegDeltaPost delta.toInt q s) :=
  ⟨encoded, _, executed, regDeltaPost_of_addToReg rfl⟩

/-- Settles O44: each form is an `addToCell` or an `addToReg` of 1, or of the byte whose signed value is -1. -/
theorem incrementsAndDecrementsWrap : Obligations.IncrementsAndDecrementsWrap := fun _ _ _ =>
  ⟨runs_cellDeltaPost 1 rfl rfl, runs_cellDeltaPost 1 rfl rfl, runs_cellDeltaPost 1 rfl rfl, runs_cellDeltaPost 1 rfl rfl,
    runs_cellDeltaPost (-1) rfl rfl, runs_cellDeltaPost (-1) rfl rfl, runs_cellDeltaPost (-1) rfl rfl,
    runs_cellDeltaPost (-1) rfl rfl, runs_regDeltaPost 1 rfl rfl, runs_regDeltaPost 1 rfl rfl,
    runs_regDeltaPost (-1) rfl rfl, runs_regDeltaPost (-1) rfl rfl⟩

end Sys2Proof.Machine
end

section
/-! PROOFS. The jumps, JSR and RTS (R201 to R204): where each leaves `PC`, what JSR leaves on the stack, and an RTS that takes it
back. -/

namespace Sys2Proof.Machine

variable {a16 : Addr} {s t : State}

/-! ### Jumps (R201) -/

theorem jumpPost_setPc (s : State) (target : Addr) : JumpPost target.toNat s (s.setPc target) :=
  ⟨rfl, frame_setPc s target, rfl, rfl, rfl⟩

/-- Settles O45: both forms are a `setPc`, of the operand or of the target read through it. -/
theorem jumpSetsPC : Obligations.JumpSetsPC := fun s a16 =>
  ⟨⟨rfl, _, rfl, jumpPost_setPc s a16⟩, ⟨rfl, _, rfl, jumpPost_setPc s (indirectTarget s a16)⟩⟩

/-! ### JSR (R202) -/

/-- The two cells of a JSR are different, also where `S` wraps between them. -/
theorem stackAddr_ne_stackAddr_sub_one (sp : Byte) : stackAddr sp ≠ stackAddr (sp - 1) := by
  rw [Ne, stackAddr_inj]
  bv_omega

/-- The second push leaves the byte of the first where it was. -/
theorem read_high_of_execJsr (h : execJsr a16 s = .next t) : t.read (stackAddr s.sp) = highByte s.pc := by
  obtain rfl := execJsr_next h
  have kept : ((s.push (highByte s.pc)).push (lowByte s.pc)).read (stackAddr s.sp) =
      (s.push (highByte s.pc)).read (stackAddr s.sp) :=
    (frame_push (s.push (highByte s.pc)) (lowByte s.pc)).cells _
      (mt List.mem_singleton.1 (stackAddr_ne_stackAddr_sub_one s.sp))
  exact kept.trans (State.read_push_stackAddr s _)

theorem read_low_of_execJsr (h : execJsr a16 s = .next t) : t.read (stackAddr (s.sp - 1)) = lowByte s.pc := by
  obtain rfl := execJsr_next h
  exact State.read_push_stackAddr (s.push (highByte s.pc)) (lowByte s.pc)

theorem sp_of_execJsr (h : execJsr a16 s = .next t) : t.sp = s.sp - 1 - 1 := by
  obtain rfl := execJsr_next h
  rfl

theorem jsrcnt_of_execJsr (h : execJsr a16 s = .next t) : t.jsrcnt = s.jsrcnt + 1 := by
  obtain rfl := execJsr_next h
  rfl

theorem jsrPost_of_execJsr (h : execJsr a16 s = .next t) : JsrPost a16 s t := by
  refine ⟨?pc, ?high, ?low, ?sp, jsrcnt_of_execJsr h, ?terminated, frame_of_execJsr h⟩
  case pc => rw [execJsr_next h, State.setJsrcnt_pc, State.setPc_pc]
  case high => rw [read_high_of_execJsr h, highByte_toNat]
  case low => rw [read_low_of_execJsr h, lowByte_toNat]
  case sp =>
    rw [sp_of_execJsr h]
    bv_omega
  case terminated => simp [execJsr_next h]

/-- Settles O46: the meaning is two pushes, the jump and the count, whose rules `jsrPost_of_execJsr` puts together. -/
theorem jsrPushesTheNextAddress : Obligations.JsrPushesTheNextAddress := fun _ _ =>
  ⟨rfl, _, rfl, jsrPost_of_execJsr rfl⟩

/-! ### RTS after JSR (R202, R204) -/

/-- With a JSR pending, an RTS pops the low and then the high byte of `PC` and counts down (R204). -/
theorem execRts_of_pending (pending : 0 < s.jsrcnt) :
    execRts s = .next ((s.pop.2.pop.2.setPc (word s.pop.2.pop.1 s.pop.1)).setJsrcnt (s.jsrcnt - 1)) :=
  if_pos pending

/-- Settles O48: the two pops meet the cells of the two pushes in the opposite order. -/
theorem rtsUndoesJsr : Obligations.RtsUndoesJsr := by
  intro s s1 u a16 jsr sameSp pending sameHigh sameLow
  have sp : u.sp = s.sp - 1 - 1 := sameSp.trans (sp_of_execJsr jsr)
  have afterOnePop : u.sp + 1 = s.sp - 1 := by rw [sp, BitVec.sub_add_cancel]
  have afterTwoPops : u.sp + 1 + 1 = s.sp := by rw [afterOnePop, BitVec.sub_add_cancel]
  have low : u.pop.1 = lowByte s.pc := by
    rw [State.pop_value, afterOnePop, sameLow, read_low_of_execJsr jsr]
  have high : u.pop.2.pop.1 = highByte s.pc := by
    rw [State.pop_value, State.read_pop, State.pop_sp, afterTwoPops, sameHigh, read_high_of_execJsr jsr]
  refine ⟨_, execRts_of_pending pending, ?pc, afterTwoPops, rfl, ?jsrcnt⟩
  case pc => rw [State.setJsrcnt_pc, State.setPc_pc, low, high, word_high_low]
  case jsrcnt =>
    intro sameCount
    rw [State.setJsrcnt_jsrcnt, sameCount, jsrcnt_of_execJsr jsr, Nat.add_sub_cancel]

end Sys2Proof.Machine
end

section
/-! PROOFS. The branches and the flag instructions (R220 to R228, R240 to R247): one `setPc` or none, and one flag write. -/

namespace Sys2Proof.Machine

variable {i : Instr} {bytes : List Byte} {cond b : Bool} {d : Byte} {f : Flag} {s t : State}

theorem branchPost_of_branchIf (h : branchIf cond d s = .next t) : BranchPost cond d s t := by
  obtain rfl := branchIf_next h
  cases cond with
  | false => exact jumpPost_setPc s s.pc
  | true =>
    have jumped := jumpPost_setPc s (branchTarget s d)
    rwa [branchTarget_toNat] at jumped

/-- An instruction whose meaning is a branch completes as one (R220). -/
theorem runs_branchPost (encoded : encode i = bytes) (executed : exec i s = branchIf cond d s) :
    Runs i bytes s (BranchPost cond d s) :=
  ⟨encoded, _, executed, branchPost_of_branchIf rfl⟩

/-- Settles O50: each branch is a `branchIf` of its flag. -/
theorem branchesTestOneFlag : Obligations.BranchesTestOneFlag := fun _ _ =>
  ⟨runs_branchPost rfl rfl, runs_branchPost rfl rfl, runs_branchPost rfl rfl, runs_branchPost rfl rfl,
    runs_branchPost rfl rfl, runs_branchPost rfl rfl, runs_branchPost rfl rfl, runs_branchPost rfl rfl⟩

theorem flagPost_setFlag (s : State) (f : Flag) (b : Bool) : FlagPost f b s (s.setFlag f b) :=
  ⟨(State.flag_setFlag s f f b).trans (if_pos rfl), writesFlags_setFlag s f b⟩

/-- An instruction whose meaning writes one flag completes as one (R240). -/
theorem runs_flagPost (encoded : encode i = bytes) (executed : exec i s = flagInstr f b s) :
    Runs i bytes s (FlagPost f b s) :=
  ⟨encoded, _, executed, flagPost_setFlag s f b⟩

/-- Settles O51: each flag instruction is a `flagInstr` of its flag and its constant. -/
theorem flagInstructionsWriteOneBit : Obligations.FlagInstructionsWriteOneBit := fun _ =>
  ⟨runs_flagPost rfl rfl, runs_flagPost rfl rfl, runs_flagPost rfl rfl, runs_flagPost rfl rfl, runs_flagPost rfl rfl,
    runs_flagPost rfl rfl, runs_flagPost rfl rfl⟩

end Sys2Proof.Machine
end

section
/-! PROOFS. Steps by what the fetch gives (R80, R82, R264): a one-byte instruction, the faults in their order, and what a
successful fetch has read. -/

namespace Sys2Proof.Machine

variable {s t : State} {i : Instr} {shape : Shape} {operands rest : List Byte} {e : Fault × State} {f : Fault}

/-! ### FetchByte (R82) -/

/-- Settles O12: `fetchByte_past_end` and `fetchByte_below_end`. -/
theorem fetchByteReadsAndAdvances : Obligations.FetchByteReadsAndAdvances := fun s =>
  ⟨fetchByte_past_end s, fun below => ⟨_, fetchByte_below_end s below, pc_succ_toNat below, rfl⟩⟩

/-! ### Instructions of one byte -/

theorem fetchInstr_below_end (below : s.pc.toNat < s.codeEnd.toNat) (row : decodeOpcode (s.read s.pc) = some shape) :
    fetchInstr s = fetchOperand shape (s.setPc (s.pc + 1)) := by
  simp only [fetchInstr, fetchByte_below_end s below, row]

theorem step_of_bare (running : s.terminated = false) (below : s.pc.toNat < s.codeEnd.toNat)
    (row : decodeOpcode (s.read s.pc) = some (.bare i)) : step s = exec i (s.setPc (s.pc + 1)) := by
  rw [step_running s running, fetchInstr_below_end below row]
  rfl

/-- A step that fetches BRK, RTI or NOP moves `PC` past it and does no more (R248, D15). -/
theorem step_of_noOp (running : s.terminated = false) (below : s.pc.toNat < s.codeEnd.toNat)
    (noOp : s.read s.pc ∈ [(0x00 : Byte), 0x40, 0xEA]) : step s = .next (s.setPc (s.pc + 1)) := by
  simp only [List.mem_cons, List.not_mem_nil, or_false] at noOp
  rcases noOp with brk | rti | nop
  · exact step_of_bare (i := .brk) running below (brk ▸ rfl)
  · exact step_of_bare (i := .rti) running below (rti ▸ rfl)
  · exact step_of_bare (i := .nop) running below (nop ▸ rfl)

/-- Settles O49: the three meanings are the state itself, so what is left of the step is the opcode fetch. -/
theorem brkRtiAndNopOnlyFetch : Obligations.BrkRtiAndNopOnlyFetch := fun s =>
  ⟨⟨rfl, s, rfl, rfl⟩, ⟨rfl, s, rfl, rfl⟩, ⟨rfl, s, rfl, rfl⟩, step_of_noOp⟩

/-- The host's run makes the first step and goes on from there. -/
theorem core_run_succ_of_next {M : Host.Core} {s t : M.State} (first : M.step s = .next t) (n : Nat) :
    M.run (n + 1) s = M.run n t := by
  rw [Host.Core.run, first]

/-- Settles O60: a zero byte is BRK's opcode, and each step leaves one zero byte less in front of `PC`. -/
theorem zeroFilledMemoryRunsAsNoOps : Obligations.ZeroFilledMemoryRunsAsNoOps := by
  intro n
  induction n with
  | zero => exact fun s _ _ _ => congrArg (fun w => Host.Outcome.next (s.setPc w)) (BitVec.add_zero s.pc).symm
  | succ n ih =>
    intro s running fits zeros
    have below : s.pc.toNat < s.codeEnd.toNat := by omega
    have next : (s.setPc (s.pc + 1)).pc.toNat = s.pc.toNat + 1 := pc_succ_toNat below
    have first : step s = .next (s.setPc (s.pc + 1)) :=
      step_of_noOp running below (by simp [zeros s.pc (Nat.le_refl _) (by omega)])
    have past : s.pc + 1 + BitVec.ofNat 16 n = s.pc + BitVec.ofNat 16 (n + 1) := by
      rw [BitVec.add_assoc, Nat.add_comm, BitVec.ofNat_add]
      rfl
    calc Host.Core.run Sys2Proof.core (n + 1) s
        = Host.Core.run Sys2Proof.core n (s.setPc (s.pc + 1)) := core_run_succ_of_next (M := Sys2Proof.core) first n
      _ = .next (s.setPc (s.pc + 1 + BitVec.ofNat 16 n)) :=
        ih (s.setPc (s.pc + 1)) running (by rw [next, State.setPc_codeEnd]; omega)
          fun addr low high => zeros addr (by omega) (by omega)
      _ = .next (s.setPc (s.pc + BitVec.ofNat 16 (n + 1))) := by rw [past]

/-! ### Faults (R261 to R264) -/

theorem step_of_fetchInstr_error (running : s.terminated = false) (h : fetchInstr s = .error e) :
    step s = .fault e.1 := by
  rw [step_running s running, h]

theorem faultState_of_fetchInstr_error (h : fetchInstr s = .error e) : faultState s = e.2 := by
  rw [faultState, h]

theorem fetchInstr_past_end (past : s.codeEnd.toNat ≤ s.pc.toNat) :
    fetchInstr s = .error (.endOfDataFetch s.pc, s) := by
  rw [fetchInstr, fetchByte_past_end s past]

theorem fetchInstr_of_illegal (below : s.pc.toNat < s.codeEnd.toNat) (noRow : decodeOpcode (s.read s.pc) = none) :
    fetchInstr s = .error (.illegalOpcode (s.read s.pc) s.pc, s.setPc (s.pc + 1)) := by
  simp only [fetchInstr, fetchByte_below_end s below, noRow, raise]

theorem fetchByte_at_end (h : s.pc = s.codeEnd) : fetchByte s = .error (.endOfDataFetch s.codeEnd, s) := by
  rw [fetchByte_past_end s (h ▸ BitVec.le_refl _), h]

/-- Operand bytes that do not all lie below the window's end: the first missing one is at `CODE_END` (R261). -/
theorem fetchOperand_of_reads_past_end (reads : shape.Reads operands i) (start : s.pc.toNat ≤ s.codeEnd.toNat)
    (past : s.codeEnd.toNat < s.pc.toNat + operands.length) :
    fetchOperand shape s = .error (.endOfDataFetch s.codeEnd, s.setPc s.codeEnd) := by
  rcases Nat.eq_or_lt_of_le start with atEnd | below
  · have atEnd : s.pc = s.codeEnd := BitVec.eq_of_toNat_eq atEnd
    have here : s.setPc s.codeEnd = s := atEnd ▸ s.setPc_self
    cases reads with
    | bare => exact absurd past (by simp [atEnd])
    | byte | word => simp only [fetchOperand, fetchByte_at_end atEnd, here]
  · have next : (s.pc + 1).toNat = s.pc.toNat + 1 := pc_succ_toNat below
    cases reads with
    | bare => exact absurd past (by simp; omega)
    | byte => exact absurd past (by simp; omega)
    | word f a16 =>
      have length : (wordBytes a16).length = 2 := rfl
      have atEnd : s.pc + 1 = s.codeEnd := BitVec.eq_of_toNat_eq (by omega)
      have second : fetchByte (s.setPc (s.pc + 1)) = .error (.endOfDataFetch s.codeEnd, s.setPc (s.pc + 1)) :=
        fetchByte_at_end atEnd
      simp only [fetchOperand, fetchByte_below_end s below, second]
      rw [atEnd]

theorem fetchInstr_of_decode_past_end (below : s.pc.toNat < s.codeEnd.toNat)
    (h : decode (s.bytesAt s.pc 3) = .ok (i, rest)) (past : s.codeEnd.toNat < s.pc.toNat + (encode i).length) :
    fetchInstr s = .error (.endOfDataFetch s.codeEnd, s.setPc s.codeEnd) := by
  obtain ⟨op, shape, operands, row, reads, bytes⟩ := decode_ok h
  obtain ⟨rfl, -⟩ := List.cons.inj bytes
  rw [encode_of_row (mem_opcodeMap row) reads, List.length_cons] at past
  have next : (s.setPc (s.pc + 1)).pc.toNat = s.pc.toNat + 1 := pc_succ_toNat below
  rw [fetchInstr_below_end below row]
  exact fetchOperand_of_reads_past_end reads (by rw [next]; exact below) (by rw [next, State.setPc_codeEnd]; omega)

/-- Settles O13: each clause is one way for the fetch to raise, and the fault and its state are those of the fetch. -/
theorem faultsComeInPriorityOrder : Obligations.FaultsComeInPriorityOrder := by
  intro s
  have raises {e : Fault × State} (running : s.terminated = false) (h : fetchInstr s = .error e) :
      step s = .fault e.1 ∧ faultState s = e.2 :=
    ⟨step_of_fetchInstr_error running h, faultState_of_fetchInstr_error h⟩
  exact ⟨step_terminated s, fun running =>
    ⟨fun past => raises running (fetchInstr_past_end past),
      fun below noRow => raises running (fetchInstr_of_illegal below noRow),
      fun i rest below decoded past => raises running (fetchInstr_of_decode_past_end below decoded past)⟩⟩

theorem decodeOpcode_eq_none_iff (op : Byte) : decodeOpcode op = none ↔ op ∈ illegalOpcodes := by
  rw [← Option.not_isSome_iff_eq_none, decodeOpcode_isSome_iff, not_not]

/-- R67 lists the bytes in rising order. -/
theorem illegalOpcodes_sorted : illegalOpcodes.Pairwise (· < ·) := List.isChain_iff_pairwise.1 (by decide +kernel)

theorem illegalOpcodes_nodup : illegalOpcodes.Nodup := illegalOpcodes_sorted.imp BitVec.ne_of_lt

/-- Settles O10: the list is the bytes without a row, and a fetch of one has only moved `PC`. -/
theorem illegalOpcodesFault : Obligations.IllegalOpcodesFault := by
  refine ⟨rfl, illegalOpcodes_nodup, decodeOpcode_eq_none_iff, fun s running below illegal => ?_⟩
  have fetched := fetchInstr_of_illegal below ((decodeOpcode_eq_none_iff _).2 illegal)
  refine ⟨step_of_fetchInstr_error running fetched, ?_⟩
  rw [faultState_of_fetchInstr_error fetched]
  rfl

/-! ### What a fetch can raise (R82, R262) -/

theorem fetchByte_error_addr (h : fetchByte s = .error e) :
    ∃ addr, e.1 = .endOfDataFetch addr ∧ s.codeEnd.toNat ≤ addr.toNat := by
  obtain ⟨past, rfl⟩ := fetchByte_error s e h
  exact ⟨s.pc, rfl, past⟩

theorem fetchOperand_error_addr (h : fetchOperand shape s = .error e) :
    ∃ addr, e.1 = .endOfDataFetch addr ∧ s.codeEnd.toNat ≤ addr.toNat := by
  cases shape with
  | bare => cases h
  | byte f =>
    simp only [fetchOperand] at h
    split at h
    · next raised => cases h; exact fetchByte_error_addr raised
    · cases h
  | word f =>
    simp only [fetchOperand] at h
    split at h
    · next raised => cases h; exact fetchByte_error_addr raised
    · next lo s1 fetched =>
      obtain ⟨-, -, rfl⟩ := fetchByte_ok _ _ _ fetched
      split at h
      · next raised => cases h; exact fetchByte_error_addr (s := s.setPc (s.pc + 1)) raised
      · cases h

theorem fetchInstr_error_cases (h : fetchInstr s = .error e) :
    (∃ addr, e.1 = .endOfDataFetch addr ∧ s.codeEnd.toNat ≤ addr.toNat) ∨
    (e.1 = .illegalOpcode (s.read s.pc) s.pc ∧ s.read s.pc ∈ illegalOpcodes ∧ s.pc.toNat < s.codeEnd.toNat) := by
  rcases Nat.lt_or_ge s.pc.toNat s.codeEnd.toNat with below | past
  · cases row : decodeOpcode (s.read s.pc) with
    | none =>
      obtain rfl := Except.error.inj ((fetchInstr_of_illegal below row).symm.trans h)
      exact .inr ⟨rfl, (decodeOpcode_eq_none_iff _).1 row, below⟩
    | some shape =>
      rw [fetchInstr_below_end below row] at h
      exact .inl (fetchOperand_error_addr (s := s.setPc (s.pc + 1)) h)
  · obtain rfl := Except.error.inj ((fetchInstr_past_end past).symm.trans h)
    exact .inl ⟨s.pc, rfl, past⟩

/-! ### After decode nothing is raised -/

theorem execRts_completes (s : State) : ∃ t, execRts s = .next t := by
  unfold execRts
  split <;> exact ⟨_, rfl⟩

theorem shiftBy_completes (op : ShiftOp) (o : Operand) (s : State) : ∃ t, Laws.shiftBy op o s = .next t := by
  cases o <;> exact ⟨_, rfl⟩

theorem execBy_completes (m : Mnemonic) (o : Operand) (s : State) : ∃ t, Laws.execBy m o s = .next t := by
  cases m
  case adc => exact addWithCarry_completes _ s
  case sbc => exact subtractWithBorrow_completes _ s
  case asl | lsr | rol | ror => exact shiftBy_completes _ o s
  case rts => exact execRts_completes s
  all_goals exact ⟨_, rfl⟩

theorem exec_completes (i : Instr) (s : State) : ∃ t, exec i s = .next t := by
  rw [Laws.exec_eq_execBy]
  exact execBy_completes i.mnemonic i.operand s

theorem step_completes (running : s.terminated = false) (fetched : fetchInstr s = .ok (i, t)) :
    ∃ u, step s = .next u := by
  rw [step_running s running, fetched]
  exact exec_completes i t

/-- A step that faults raised its fault in the fetch. -/
theorem step_fault (h : step s = .fault f) : s.terminated = false ∧ ∃ e, fetchInstr s = .error e ∧ e.1 = f := by
  cases running : s.terminated with
  | true => rw [step_terminated s running] at h; cases h
  | false =>
    cases fetched : fetchInstr s with
    | error e => exact ⟨rfl, e, rfl, Host.Outcome.fault.inj ((step_of_fetchInstr_error running fetched).symm.trans h)⟩
    | ok r =>
      obtain ⟨u, next⟩ := step_completes running fetched
      cases next.symm.trans h

theorem step_refused_iff (s : State) (r : Refusal) : step s = .refused r ↔ s.terminated = true ∧ r = .runEnded := by
  cases running : s.terminated with
  | true => simp [step_terminated s running, eq_comm]
  | false =>
    cases fetched : fetchInstr s with
    | error e => simp [step_of_fetchInstr_error running fetched]
    | ok r =>
      obtain ⟨u, next⟩ := step_completes running fetched
      simp [next]

/-- Settles O15: `exec_completes`, so that only the fetch is left to raise a fault. -/
theorem onlyTheFetchFaults : Obligations.OnlyTheFetchFaults := by
  refine ⟨exec_completes, fun s f h => ?_, step_refused_iff⟩
  obtain ⟨-, e, raised, rfl⟩ := step_fault h
  exact fetchInstr_error_cases raised

/-- Settles O14: neither `step` nor `run` goes on once TERMINATED is set. -/
theorem terminatedMachineTakesNoStep : Obligations.TerminatedMachineTakesNoStep := fun s ended =>
  ⟨step_terminated s ended, fun n => run_ended n s (by rw [ended]; rfl)⟩

end Sys2Proof.Machine
end

section
/-! PROOFS. The host operations (R290 to R306): the invariant under each that writes the state, what a load places, and what the
reads show. -/

namespace Sys2Proof.Machine

variable {s t : State}

/-! ### The invariant speaks of memory, JSRCNT, TERMINATED and the window only -/

theorem State.Inv.with_mem (inv : s.Inv) {m : Memory} (wf : m.wf = true) : { s with mem := m }.Inv := by
  obtain ⟨-, ended, window⟩ := inv
  exact ⟨wf, ended, window⟩

theorem State.Inv.writeBytes (inv : s.Inv) (address : Addr) (bytes : List Byte) : (s.writeBytes address bytes).Inv := by
  have ⟨wf, _, _⟩ := inv
  rw [State.writeBytes_eq]
  exact inv.with_mem (State.writeBytes_wf bytes s address wf)

theorem State.Inv.setPc (inv : s.Inv) (w : Addr) : (s.setPc w).Inv := inv

theorem loadData_inv (inv : s.Inv) (bytes : List Byte) (address : Addr) (clearFirst : Bool) :
    (loadData bytes address s clearFirst).2.Inv := by
  have start : (if clearFirst then s.clearMemory else s).Inv := by
    cases clearFirst with
    | true => exact inv.with_mem rfl
    | false => exact inv
  unfold loadData
  split
  · exact start.writeBytes address bytes
  · exact inv

theorem loadExecutable_inv (inv : s.Inv) (bytes : List Byte) (address : Addr) :
    (loadExecutable bytes address s).2.Inv := by
  unfold loadExecutable
  split
  · next fits =>
    have stop := codeEnd_toNat bytes address ((loadFits_iff bytes address).1 fits)
    refine ⟨State.writeBytes_wf bytes s.clearMemory address s.clearMemory_wf, fun _ => rfl, ?_⟩
    exact BitVec.le_def.2 (by rw [stop]; exact Nat.le_add_right ..)
  · exact inv

theorem faultState_eq_setPc (s : State) : faultState s = s.setPc (faultState s).pc := by
  unfold faultState
  split
  · next e raised => exact fetchInstr_error s e raised
  · rfl

/-- Settles O4: a load keeps memory in canonical form and sets a window in order, and the other two leave all that the
invariant speaks of. -/
theorem hostOperationsKeepTheInvariant : Obligations.HostOperationsKeepTheInvariant := fun s =>
  ⟨State.reset_inv, fun inv =>
    ⟨loadData_inv inv, loadExecutable_inv inv, fun _ => inv, faultState_eq_setPc s ▸ inv.setPc _⟩⟩

/-! ### Loads (R292 to R294) -/

theorem loadFits_eq_true {bytes : List Byte} {address : Addr} (fits : address.toNat + bytes.length ≤ 65535) :
    loadFits bytes address = true := (loadFits_iff bytes address).2 fits

theorem loadFits_eq_false {bytes : List Byte} {address : Addr} (past : 65535 < address.toNat + bytes.length) :
    loadFits bytes address = false := Bool.eq_false_iff.2 fun h => Nat.not_le.2 past ((loadFits_iff bytes address).1 h)

@[simp] theorem State.read_clearMemory (s : State) (addr : Addr) : s.clearMemory.read addr = 0x00 := rfl

/-- Past its end an image reads as the cleared cells do. -/
theorem State.read_writeBytes_clearMemory {bytes : List Byte} {address : Addr}
    (fits : address.toNat + bytes.length ≤ 65535) (s : State) (addr : Addr) :
    (s.clearMemory.writeBytes address bytes).read addr =
      if address.toNat ≤ addr.toNat then bytes.getD (addr.toNat - address.toNat) 0x00 else 0x00 := by
  rw [State.read_writeBytes _ _ _ _ (by omega), State.read_clearMemory]
  by_cases low : address.toNat ≤ addr.toNat
  · by_cases high : addr.toNat < address.toNat + bytes.length
    · rw [if_pos ⟨low, high⟩, if_pos low]
    · rw [if_neg (by omega), if_pos low, List.getD_eq_default _ _ (by omega)]
  · rw [if_neg (by omega), if_neg low]

/-- Settles O56: the image over cleared memory, and the other fields as the load sets or keeps them. -/
theorem loadExecutablePlacesAProgram : Obligations.LoadExecutablePlacesAProgram := by
  intro s bytes address
  refine ⟨fun fits => ⟨_, if_pos (loadFits_eq_true fits), s.read_writeBytes_clearMemory fits, rfl,
    codeEnd_toNat bytes address fits, rfl, rfl, rfl, ?_⟩, fun past => ?_⟩
  · rw [State.writeBytes_eq]
    exact ⟨rfl, rfl, rfl, rfl, rfl⟩
  · rw [loadExecutable, loadFits_eq_false past]
    rfl

/-- Settles O57: `State.read_writeBytes` over the memory cleared or as it was. -/
theorem loadDataTouchesMemoryOnly : Obligations.LoadDataTouchesMemoryOnly := by
  intro s bytes address clearFirst
  refine ⟨fun fits => ⟨_, if_pos (loadFits_eq_true fits), ?memoryOnly, fun addr => ?cells⟩, fun past => ?_⟩
  case memoryOnly =>
    rw [State.writeBytes_eq]
    cases clearFirst <;> rfl
  case cells =>
    rw [State.read_writeBytes _ _ _ _ (by omega)]
    cases clearFirst <;> rfl
  · rw [loadData, loadFits_eq_false past]
    rfl

/-! ### Reads and patches (R303 to R306) -/

theorem dumpMemory_ok {address : Addr} {length : Nat} (s : State) (fits : address.toNat + length ≤ 0x10000) :
    dumpMemory address length s = .ok ((List.range length).map fun k => s.mem.read (address.toNat + k)) := if_pos fits

theorem dumpMemory_past_end {address : Addr} {length : Nat} (s : State) (past : 0x10000 < address.toNat + length) :
    dumpMemory address length s = .error (.dumpOutOfRange address length) := if_neg (Nat.not_le.2 past)

/-- Settles O58: each field of the patched state is the patch's value or the old one, and a dump is a map over its range. -/
theorem hostReadsAndPatches : Obligations.HostReadsAndPatches := by
  intro s ⟨a, x, y, pc, flags⟩ address length
  refine ⟨rfl, rfl, ?a, ?x, ?y, ?pc, ?p, rfl, rfl, rfl, rfl, rfl, rfl,
    fun fits => ⟨_, dumpMemory_ok s fits, by simp, fun k addr inRange place => ?cell⟩, dumpMemory_past_end s⟩
  case a => cases a <;> rfl
  case x => cases x <;> rfl
  case y => cases y <;> rfl
  case pc => cases pc <;> rfl
  case p => cases flags <;> rfl
  case cell => simp [List.getElem?_range inRange, State.read, place]

end Sys2Proof.Machine
end

section
/-! PROOFS. Runs (R300, R301, R315): how a run ends, that more fuel changes no ending, and the RTS that ends one. -/

namespace Sys2Proof.Machine

variable {s t : State} {i : Instr} {shape : Shape} {m n : Nat}

/-! ### What a successful fetch has read (R61, R101) -/

theorem fetchOperand_ok_reads (h : fetchOperand shape s = .ok (i, t)) :
    ∃ operands, shape.Reads operands i ∧ t = s.setPc (s.pc + BitVec.ofNat 16 operands.length) := by
  cases shape with
  | bare j =>
    cases h
    exact ⟨[], .bare i, by simp⟩
  | byte f =>
    simp only [fetchOperand] at h
    split at h
    · cases h
    · next d s1 fetched =>
      obtain ⟨-, -, rfl⟩ := fetchByte_ok _ _ _ fetched
      cases h
      exact ⟨[d], .byte f d, rfl⟩
  | word f =>
    simp only [fetchOperand] at h
    split at h
    · cases h
    · next lo s1 fetched =>
      obtain ⟨-, -, rfl⟩ := fetchByte_ok _ _ _ fetched
      split at h
      · cases h
      · next hi s2 fetched' =>
        obtain ⟨-, -, rfl⟩ := fetchByte_ok _ _ _ fetched'
        cases h
        refine ⟨[lo, hi], Shape.reads_word_operandWord f lo hi, ?_⟩
        simp [BitVec.add_assoc]

/-- The fetch read the instruction's opcode byte at `PC`, below the window's end, and left `PC` past its bytes. -/
theorem fetchInstr_ok_opcode (h : fetchInstr s = .ok (i, t)) :
    s.pc.toNat < s.codeEnd.toNat ∧ s.read s.pc = i.opcode ∧ t = s.setPc (s.pc + BitVec.ofNat 16 i.length) := by
  rcases Nat.lt_or_ge s.pc.toNat s.codeEnd.toNat with below | past
  · cases row : decodeOpcode (s.read s.pc) with
    | none => cases (fetchInstr_of_illegal below row).symm.trans h
    | some shape =>
      rw [fetchInstr_below_end below row] at h
      obtain ⟨operands, reads, rfl⟩ := fetchOperand_ok_reads h
      have encoded := encode_of_row (mem_opcodeMap row) reads
      have length : i.length = 1 + operands.length := by rw [← length_encode, encoded, List.length_cons, Nat.add_comm]
      refine ⟨below, (List.cons.inj encoded).1.symm, ?_⟩
      rw [State.setPc_setPc, State.setPc_pc, length, BitVec.ofNat_add, BitVec.add_assoc]
      rfl
  · cases (fetchInstr_past_end past).symm.trans h

/-! ### The step that ends a run (R204) -/

theorem eq_rts_of_mnemonic (h : i.mnemonic = .rts) : i = .rts := by
  cases i <;> cases h
  rfl

/-- Only an RTS with no JSR pending ends a run, and its step moves `PC` past it and sets TERMINATED. -/
theorem step_next_terminated (h : step s = .next t) (ended : t.terminated = true) :
    s.read s.pc = 0x60 ∧ s.jsrcnt = 0 ∧ s.pc.toNat < s.codeEnd.toNat ∧
      t = (s.setPc (s.pc + 1)).setTerminated true := by
  obtain ⟨running, i, u, fetched, executed⟩ := step_next h
  obtain ⟨below, opcode, rfl⟩ := fetchInstr_ok_opcode fetched
  have flagged := (exec_staysInTables executed).terminated
  obtain ⟨rts, none⟩ : i.mnemonic = .rts ∧ s.jsrcnt = 0 := by simpa [running] using flagged.symm.trans ended
  obtain rfl := eq_rts_of_mnemonic rts
  refine ⟨opcode, none, below, ?_⟩
  rcases execRts_next executed with ⟨pending, -⟩ | ⟨-, rfl⟩
  · exact absurd (none ▸ pending : 0 < 0) (Nat.lt_irrefl 0)
  · rfl

/-! ### Runs (R300) -/

theorem atEndOfData_iff (s : State) : atEndOfData s = true ↔ s.codeEnd.toNat ≤ s.pc.toNat := decide_eq_true_iff

theorem run_succ_of_next (goes : ¬(s.terminated || atEndOfData s) = true) (first : step s = .next t) (n : Nat) :
    run (n + 1) s = run n t := by
  rw [run_succ n s goes, first]

/-- A run that has ended or faulted has ended or faulted in the same way with more fuel. -/
theorem run_of_le (le : m ≤ n) (stopped : ∀ u, run m s ≠ .running u) : run n s = run m s := by
  fun_induction run m s generalizing n with
  | case1 fuel s halted => exact run_ended n s halted
  | case2 s goes => exact absurd rfl (stopped s)
  | case3 s goes k t first ih =>
    obtain _ | n := n
    · cases le
    · rw [run_succ_of_next goes first]
      exact ih (Nat.le_of_succ_le_succ le) stopped
  | case4 s goes k f first | case5 s goes k r first =>
    obtain _ | n := n
    · cases le
    · rw [run_succ n s goes, first]

/-- A run asks for no step after the end, and no other step is refused. -/
theorem run_ne_refused (n : Nat) (s : State) (r : Refusal) (u : State) : run n s ≠ .refused r u := by
  fun_induction run n s with
  | case1 | case2 | case4 => exact nofun
  | case3 s goes k t first ih => exact ih
  | case5 s goes k r' first =>
    obtain ⟨ended, -⟩ := (step_refused_iff s r').1 first
    exact absurd (by rw [ended]; rfl) goes

/-- A run that has ended has ended in a state where its predicate fails. -/
theorem run_ended_halted (h : run n s = .ended t) : (t.terminated || atEndOfData t) = true := by
  fun_induction run n s with
  | case1 fuel s halted => cases h; exact halted
  | case2 | case4 | case5 => cases h
  | case3 s goes k u first ih => exact ih h

theorem run_ended_or_faulted_or_diverges (s : State) :
    (∃ n t, run n s = .ended t) ∨ (∃ n f t, run n s = .faulted f t) ∨ Diverges s := by
  by_cases stops : ∃ n, ∀ u, run n s ≠ .running u
  · obtain ⟨n, stopped⟩ := stops
    cases outcome : run n s with
    | ended t => exact .inl ⟨n, t, outcome⟩
    | faulted f t => exact .inr (.inl ⟨n, f, t, outcome⟩)
    | refused r u => exact absurd outcome (run_ne_refused n s r u)
    | running u => exact absurd outcome (stopped u)
  · exact .inr (.inr (by simpa [Diverges] using stops))

theorem endReason_of_halted (halted : (t.terminated || atEndOfData t) = true) :
    (t.terminated = true ∧ endReason t = .endedByRts) ∨
    (t.terminated = false ∧ t.codeEnd.toNat ≤ t.pc.toNat ∧ endReason t = .endedAtEndOfData) := by
  cases ended : t.terminated with
  | true => exact .inl ⟨rfl, if_pos ended⟩
  | false =>
    rw [ended, Bool.false_or, atEndOfData_iff] at halted
    exact .inr ⟨rfl, halted, if_neg (by simp [ended])⟩

/-- A run that ends by termination makes its last step from a state the host's run reaches in fewer steps than the fuel. -/
theorem exists_last_step (running : s.terminated = false) (h : run n s = .ended t) (ended : t.terminated = true) :
    ∃ k u, k < n ∧ Host.Core.run Sys2Proof.core k s = .next u ∧ u.terminated = false ∧ step u = .next t := by
  fun_induction run n s with
  | case1 fuel s halted => cases h; exact absurd (running.symm.trans ended) Bool.false_ne_true
  | case2 | case4 | case5 => cases h
  | case3 s goes n s' first ih =>
    cases still : s'.terminated with
    | true =>
      have stays := run_ended n s' (by rw [still]; rfl)
      cases stays.symm.trans h
      exact ⟨0, s, Nat.succ_pos n, rfl, running, first⟩
    | false =>
      obtain ⟨k, u, fuel, reached, last⟩ := ih still h
      exact ⟨k + 1, u, Nat.succ_lt_succ fuel, (core_run_succ_of_next (M := Sys2Proof.core) first k).trans reached, last⟩

/-- Settles O59: a run that stops stops in one way whatever the fuel, and `step_next_terminated` says what its last step was. -/
theorem runEndsInExactlyOneWay : Obligations.RunEndsInExactlyOneWay := by
  intro s
  refine ⟨run_ended_or_faulted_or_diverges s, fun m n => run_of_le, fun m n stopped stopped' => ?_,
    fun n => run_ne_refused n s, fun n t h => endReason_of_halted (run_ended_halted h), fun n t running h ended => ?_⟩
  · rcases Nat.le_total m n with le | le
    · exact (run_of_le le stopped).symm
    · exact run_of_le le stopped'
  · obtain ⟨k, u, fuel, reached, still, last⟩ := exists_last_step running h ended
    obtain ⟨opcode, none, below, result⟩ := step_next_terminated last ended
    exact ⟨k, u, fuel, reached, still, last, opcode, none, below, result⟩

end Sys2Proof.Machine
end

section
/-! PROOFS. Indirect mode, RTS and SBC (R94, R163, R167, R204): the target read through a pointer, the two outcomes of RTS, and
the difference as the sum with the complemented operand. -/

namespace Sys2Proof.Machine

variable {i : Instr} {bytes : List Byte} {a m : Byte} {s t : State}

/-! ### Indirect mode (R94) -/

theorem ind_mem_modes_iff {m : Mnemonic} : Mode.ind ∈ m.modes ↔ m = .jmp := by cases m <;> decide

/-- Settles O24: the increment of the pointer is the one of a 16-bit word. -/
theorem indirectReadsBothBytesAcrossPages : Obligations.IndirectReadsBothBytesAcrossPages := by
  intro s i ptr next h wrapped
  obtain rfl : next = ptr + 1 := BitVec.eq_of_toNat_eq (wrapped.trans (BitVec.toNat_add ptr 1).symm)
  refine ⟨ind_mem_modes_iff.1 (mode_mem_modes_of_operand h), encode_of_operand h, ?_⟩
  rw [indirectTarget, word_toNat, Nat.mul_comm]

/-! ### RTS (R204) -/

theorem rtsPost_of_execRts (h : execRts s = .next t) : RtsPost s t := by
  refine ⟨frame_of_execRts h, fun pending => ?returns, fun none => ?ends⟩
  case returns =>
    have twice : s.sp + 1 + 1 = s.sp + 2 := BitVec.add_assoc ..
    obtain rfl := Host.Outcome.next.inj ((execRts_of_pending pending).symm.trans h)
    refine ⟨?pc, ?sp, Nat.sub_add_cancel pending, rfl⟩
    case pc =>
      simp only [State.setJsrcnt_pc, State.setPc_pc, word_toNat, State.pop_value, State.read_pop, State.pop_sp, twice]
    case sp =>
      simp only [State.setJsrcnt_sp, State.setPc_sp, State.pop_sp, twice]
      exact BitVec.toNat_add s.sp 2
  case ends =>
    rcases execRts_next h with ⟨pending, -⟩ | ⟨-, rfl⟩
    · exact absurd none (Nat.ne_of_gt pending)
    · exact ⟨rfl, rfl, rfl, none⟩

/-- Settles O47: RTS completes, and `rtsPost_of_execRts` says how. -/
theorem rtsReturnsOrEndsTheRun : Obligations.RtsReturnsOrEndsTheRun := by
  intro s
  obtain ⟨t, completes⟩ := execRts_completes s
  exact ⟨rfl, t, completes, rtsPost_of_execRts completes⟩

/-! ### The binary difference (R163) -/

theorem complement_toNat (m : Byte) : ((m ^^^ 0xFF).toNat : Int) = 255 - m.toNat := by
  revert m; decide

theorem complement_toInt (m : Byte) : (m ^^^ 0xFF).toInt = -1 - m.toInt := by
  revert m; decide

/-- The exact values of a sum count modulo 256 for the result, and Carry by when it is set. -/
theorem BinaryPost.congr {u u' w w' : Int} {carry carry' : Prop} [Decidable carry] [Decidable carry']
    (h : BinaryPost u w carry s t) (result : u % 256 = u' % 256) (signed : w = w') (same : carry ↔ carry') :
    BinaryPost u' w' carry' s t := by
  obtain ⟨a, c, v, zn, written⟩ := h
  exact ⟨a.trans result, c.trans (decide_eq_decide.2 same), signed ▸ v, zn, written⟩

/-- The sum with the complement is the difference less the borrow, and 256 more where there is no borrow. -/
theorem binaryPost_subtract (m : Byte) (s : State) :
    BinaryPost (s.a.toNat - m.toNat - (1 - (s.flag .c).toNat)) (s.a.toInt - m.toInt - (1 - (s.flag .c).toNat))
      ((0 : Int) ≤ s.a.toNat - m.toNat - (1 - (s.flag .c).toNat)) s (addBinaryToA (m ^^^ 0xFF) s) := by
  have unsigned := complement_toNat m
  have signed := complement_toInt m
  exact (binaryPost_addBinaryToA (m ^^^ 0xFF) s).congr (by omega) (by omega) (by omega)

/-! ### The decimal difference (R167, R168) -/

theorem decimalSbc_of_valid (valid : ValidBcd a ∧ ValidBcd m) (c : Bool) :
    IsBcdOf (decimalSbc a m c).1 ((decValue a - decValue m - (1 - c.toNat)) % 100) ∧
      (decimalSbc a m c).2 = decide (0 ≤ decValue a - decValue m - (1 - c.toNat)) := by
  rw [decimalSbc, if_pos (isBcd_and_isBcd_iff.2 valid), bcdToNat_eq_decValue, bcdToNat_eq_decValue]
  refine ⟨?digits, rfl⟩
  case digits =>
    have digits := isBcdOf_natToBcd (n := ((decValue a - decValue m - (1 - c.toNat)) % 100).toNat) (by omega)
    rwa [Int.toNat_of_nonneg (Int.emod_nonneg _ (by decide))] at digits

theorem decimalSbc_of_invalid (invalid : ¬(ValidBcd a ∧ ValidBcd m)) (c : Bool) :
    decimalSbc a m c = Config.bcdInvalid .sbc a m c := if_neg (mt isBcd_and_isBcd_iff.1 invalid)

/-! ### SBC (R160, R163, R164) -/

theorem sbcPost_of_subtractWithBorrow (h : subtractWithBorrow m s = .next t) : SbcPost m s t := by
  rcases subtractWithBorrow_next h with ⟨decimal, rfl⟩ | ⟨binary, rfl⟩
  · refine ⟨fun binary => absurd (binary.symm.trans decimal) Bool.false_ne_true, fun _ => ?_⟩
    rw [State.flag_c_decimalToA]
    exact ⟨writesReg_decimalToA _ s, fun valid => decimalSbc_of_valid valid _, fun invalid => decimalSbc_of_invalid invalid _⟩
  · exact ⟨fun _ => binaryPost_subtract m s, fun decimal => absurd (decimal.symm.trans binary) (by decide)⟩

/-- An instruction whose meaning is a subtraction with borrow completes as one (R163). -/
theorem runs_sbcPost (encoded : encode i = bytes) (executed : exec i s = subtractWithBorrow m s) :
    Runs i bytes s (SbcPost m s) := by
  obtain ⟨t, completes⟩ := subtractWithBorrow_completes m s
  exact ⟨encoded, t, executed.trans completes, sbcPost_of_subtractWithBorrow completes⟩

/-- Settles O39: each form is a `subtractWithBorrow` of its operand. -/
theorem sbcSubtractsWithBorrow : Obligations.SbcSubtractsWithBorrow := fun _ _ _ =>
  ⟨runs_sbcPost rfl rfl, runs_sbcPost rfl rfl, runs_sbcPost rfl rfl, runs_sbcPost rfl rfl, runs_sbcPost rfl rfl,
    runs_sbcPost rfl rfl, runs_sbcPost rfl rfl, runs_sbcPost rfl rfl⟩

end Sys2Proof.Machine
end

section
/-! PROOFS. What an operand takes from the state (R88 to R100): memory and at most one index register. What ADC, SBC and RTS do in
each of their two cases. -/

namespace Sys2Proof.Machine

open Sys2Proof.Laws

/-- The register that a memory operand's address adds (R89, R90, R92, R93, R95, R96). -/
def formIndex : MemForm → Option Reg
  | .zpx _ | .absx _ | .indx _ => some .x
  | .zpy _ | .absy _ | .indy _ => some .y
  | .zp _ | .abs _ => none

/-- The index register of an operand. -/
def operandIndex : Operand → Option Reg
  | .mem form => formIndex form
  | .imp | .acc | .imm _ | .ind _ | .rel _ => none

variable {s t : State} {form : MemForm} {o : Operand}

theorem read_of_same_mem (mem : t.mem = s.mem) : t.read = s.read := by
  funext addr
  rw [State.read, State.read, mem]

theorem effectiveAddress_of_same (mem : t.mem = s.mem) (index : ∀ r, formIndex form = some r → t.reg r = s.reg r) :
    effectiveAddress t form = effectiveAddress s form := by
  have read := read_of_same_mem mem
  cases form with
  | zp | abs => rfl
  | zpx | absx | indx =>
    have x : t.x = s.x := index .x rfl
    simp only [effectiveAddress, zeroPagePointer, read, x]
  | zpy | absy | indy =>
    have y : t.y = s.y := index .y rfl
    simp only [effectiveAddress, zeroPagePointer, read, y]

theorem sourceByte_of_same (mem : t.mem = s.mem) (index : ∀ r, operandIndex o = some r → t.reg r = s.reg r) :
    sourceByte t o = sourceByte s o := by
  cases o with
  | mem form => simp only [sourceByte, memOperand, read_of_same_mem mem, effectiveAddress_of_same (form := form) mem index]
  | imp | acc | imm | ind | rel => rfl

theorem jumpTarget_of_same (mem : t.mem = s.mem) (index : ∀ r, operandIndex o = some r → t.reg r = s.reg r) :
    jumpTarget t o = jumpTarget s o := by
  cases o with
  | mem form => exact effectiveAddress_of_same mem index
  | ind ptr => simp only [jumpTarget, indirectTarget, read_of_same_mem mem]
  | imp | acc | imm | rel => rfl

variable {m : Byte}

theorem addWithCarry_of_decimal (decimal : s.flag .d = true) :
    addWithCarry m s = .next (decimalToA (decimalAdc s.a m (s.flag .c)) s) := if_pos decimal

theorem addWithCarry_of_binary (binary : s.flag .d = false) : addWithCarry m s = .next (addBinaryToA m s) :=
  if_neg (Bool.eq_false_iff.1 binary)

theorem subtractWithBorrow_of_decimal (decimal : s.flag .d = true) :
    subtractWithBorrow m s = .next (decimalToA (decimalSbc s.a m (s.flag .c)) s) := if_pos decimal

theorem subtractWithBorrow_of_binary (binary : s.flag .d = false) :
    subtractWithBorrow m s = .next (addBinaryToA (m ^^^ 0xFF) s) := if_neg (Bool.eq_false_iff.1 binary)

theorem execRts_of_none (none : ¬0 < s.jsrcnt) : execRts s = .next (s.setTerminated true) := if_neg none

end Sys2Proof.Machine
end

section
/-! PROOFS. CODE_START (10_state.md section 4): neither the fetch nor a meaning looks at it, so that a change of it before a step
is the same change after it. -/

namespace Sys2Proof.Machine

open Sys2Proof.Laws

/-- `CODE_START <- v`, and nothing else. -/
def State.setCodeStart (v : Addr) (s : State) : State := { s with codeStart := v }

/-- A function over the state that a fetch leaves, raised or not. -/
def mapFetched {α : Type} (g : State → State) : Fetched α → Fetched α
  | .ok (x, t) => .ok (x, g t)
  | .error (f, t) => .error (f, g t)

variable (v : Addr) (s : State)

/-! ### The fetch -/

theorem fetchByte_setCodeStart :
    fetchByte (s.setCodeStart v) = mapFetched (State.setCodeStart v) (fetchByte s) := by
  rcases Nat.lt_or_ge s.pc.toNat s.codeEnd.toNat with below | past
  · rw [fetchByte_below_end s below, fetchByte_below_end (s.setCodeStart v) below]
    rfl
  · rw [fetchByte_past_end s past, fetchByte_past_end (s.setCodeStart v) past]
    rfl

theorem fetchOperand_setCodeStart (shape : Shape) :
    fetchOperand shape (s.setCodeStart v) = mapFetched (State.setCodeStart v) (fetchOperand shape s) := by
  cases shape with
  | bare i => rfl
  | byte f =>
    simp only [fetchOperand, fetchByte_setCodeStart]
    cases fetchByte s <;> rfl
  | word f =>
    simp only [fetchOperand, fetchByte_setCodeStart]
    cases fetchByte s with
    | error e => rfl
    | ok first =>
      simp only [mapFetched, fetchByte_setCodeStart]
      cases fetchByte first.2 <;> rfl

theorem fetchInstr_setCodeStart :
    fetchInstr (s.setCodeStart v) = mapFetched (State.setCodeStart v) (fetchInstr s) := by
  simp only [fetchInstr, fetchByte_setCodeStart]
  cases fetchByte s with
  | error e => rfl
  | ok fetched =>
    simp only [mapFetched]
    cases decodeOpcode fetched.1 with
    | none => rfl
    | some shape => exact fetchOperand_setCodeStart v fetched.2 shape

/-! ### The meanings -/

theorem effectiveAddress_setCodeStart (form : MemForm) :
    effectiveAddress (s.setCodeStart v) form = effectiveAddress s form := effectiveAddress_of_same rfl fun _ _ => rfl

theorem sourceByte_setCodeStart (o : Operand) : sourceByte (s.setCodeStart v) o = sourceByte s o :=
  sourceByte_of_same rfl fun _ _ => rfl

theorem jumpTarget_setCodeStart (o : Operand) : jumpTarget (s.setCodeStart v) o = jumpTarget s o :=
  jumpTarget_of_same rfl fun _ _ => rfl

theorem addWithCarry_setCodeStart (m : Byte) :
    addWithCarry m (s.setCodeStart v) = mapNext (State.setCodeStart v) (addWithCarry m s) := by
  cases mode : s.flag .d with
  | true => rw [addWithCarry_of_decimal mode, addWithCarry_of_decimal (s := s.setCodeStart v) mode]; rfl
  | false => rw [addWithCarry_of_binary mode, addWithCarry_of_binary (s := s.setCodeStart v) mode]; rfl

theorem subtractWithBorrow_setCodeStart (m : Byte) :
    subtractWithBorrow m (s.setCodeStart v) = mapNext (State.setCodeStart v) (subtractWithBorrow m s) := by
  cases mode : s.flag .d with
  | true => rw [subtractWithBorrow_of_decimal mode, subtractWithBorrow_of_decimal (s := s.setCodeStart v) mode]; rfl
  | false => rw [subtractWithBorrow_of_binary mode, subtractWithBorrow_of_binary (s := s.setCodeStart v) mode]; rfl

theorem shiftBy_setCodeStart (op : ShiftOp) (o : Operand) :
    shiftBy op o (s.setCodeStart v) = mapNext (State.setCodeStart v) (shiftBy op o s) := by
  cases o with
  | mem form =>
    simp only [shiftBy, shiftMem, effectiveAddress_setCodeStart]
    rfl
  | imp | acc | imm | ind | rel => rfl

theorem branchIf_setCodeStart (cond : Bool) (d : Byte) :
    branchIf cond d (s.setCodeStart v) = mapNext (State.setCodeStart v) (branchIf cond d s) := by
  cases cond <;> rfl

theorem execRts_setCodeStart : execRts (s.setCodeStart v) = mapNext (State.setCodeStart v) (execRts s) := by
  by_cases pending : 0 < s.jsrcnt
  · rw [execRts_of_pending pending, execRts_of_pending (s := s.setCodeStart v) pending]
    rfl
  · rw [execRts_of_none pending, execRts_of_none (s := s.setCodeStart v) pending]
    rfl

theorem execBy_setCodeStart (m : Mnemonic) (o : Operand) :
    execBy m o (s.setCodeStart v) = mapNext (State.setCodeStart v) (execBy m o s) := by
  cases m
  case adc => simp only [execBy, sourceByte_setCodeStart, addWithCarry_setCodeStart]
  case sbc => simp only [execBy, sourceByte_setCodeStart, subtractWithBorrow_setCodeStart]
  case and | eor | ora | bit | cmp | cpx | cpy | lda | ldx | ldy =>
    simp only [execBy, sourceByte_setCodeStart]
    rfl
  case asl | lsr | rol | ror => exact shiftBy_setCodeStart v s _ o
  case inc | dec =>
    simp only [execBy, addToCell, effectiveAddress_setCodeStart]
    rfl
  case sta | stx | sty =>
    simp only [execBy, storeByte, effectiveAddress_setCodeStart]
    rfl
  case bcc | bcs | beq | bmi | bne | bpl | bvc | bvs => exact branchIf_setCodeStart v s _ _
  case jmp | jsr =>
    simp only [execBy, jumpTarget_setCodeStart]
    rfl
  case rts => exact execRts_setCodeStart v s
  case brk | rti | nop | clc | cld | cli | clv | sec | sed | sei | dex | dey | inx | iny | pha | php | pla | plp | tax | tay |
      tsx | txa | txs | tya => rfl

/-- Settles O17: the change passes through the fetch and through `exec`. -/
theorem windowStartIsNeverRead : Obligations.WindowStartIsNeverRead := by
  intro s v
  change step (s.setCodeStart v) = mapNext (State.setCodeStart v) (step s)
  cases running : s.terminated with
  | true =>
    rw [step_terminated s running, step_terminated (s.setCodeStart v) running]
    rfl
  | false =>
    rw [step_running s running, step_running (s.setCodeStart v) running, fetchInstr_setCodeStart]
    cases fetchInstr s with
    | error e => rfl
    | ok fetched =>
      simp only [mapFetched, exec_eq_execBy]
      exact execBy_setCodeStart v fetched.2 fetched.1.mnemonic fetched.1.operand

end Sys2Proof.Machine
end

section
/-! PROOFS. The table of R11: which general register an instruction writes, which it reads, and that it uses no other. -/

namespace Sys2Proof.Machine

open Sys2Proof.Laws

variable {m : Mnemonic} {o : Operand} {i : Instr} {q r : Reg} {s t : State}

/-! ### The table by mnemonic and operand -/

/-- The register that a shift reads and writes: `A` unless it shifts a cell. -/
def shiftReg : Operand → Option Reg
  | .mem _ => none
  | .acc | .imp | .imm _ | .ind _ | .rel _ => some .a

/-- The general register that an instruction writes, if any: the "written by" column of R11 (see `writtenBy_eq`). -/
def destReg (m : Mnemonic) (o : Operand) : Option Reg :=
  match m with
  | .lda | .txa | .tya | .pla | .and | .eor | .ora | .adc | .sbc => some .a
  | .ldx | .tax | .tsx | .inx | .dex => some .x
  | .ldy | .tay | .iny | .dey => some .y
  | .asl | .lsr | .rol | .ror => shiftReg o
  | .sta | .stx | .sty | .pha | .php | .plp | .txs | .bit | .cmp | .cpx | .cpy | .inc | .dec | .jmp | .jsr | .rts | .brk | .rti |
    .nop | .clc | .cld | .cli | .clv | .sec | .sed | .sei | .bcc | .bcs | .beq | .bmi | .bne | .bpl | .bvc | .bvs => none

/-- The general register that an instruction reads besides the index of its operand: with `operandIndex`, the "read by" column
of R11 (see `readBy_eq`). -/
def sourceReg (m : Mnemonic) (o : Operand) : Option Reg :=
  match m with
  | .sta | .tax | .tay | .pha | .and | .eor | .ora | .bit | .adc | .sbc | .cmp => some .a
  | .stx | .txa | .txs | .cpx | .inx | .dex => some .x
  | .sty | .tya | .cpy | .iny | .dey => some .y
  | .asl | .lsr | .rol | .ror => shiftReg o
  | .lda | .ldx | .ldy | .tsx | .pla | .php | .plp | .inc | .dec | .jmp | .jsr | .rts | .brk | .rti | .nop | .clc | .cld | .cli |
    .clv | .sec | .sed | .sei | .bcc | .bcs | .beq | .bmi | .bne | .bpl | .bvc | .bvs => none

theorem writtenBy_eq (q : Reg) (i : Instr) : q.writtenBy i = (destReg i.mnemonic i.operand == some q) := by
  cases q with
  | a | x | y => cases i <;> rfl

theorem readBy_eq (q : Reg) (i : Instr) :
    q.readBy i = (sourceReg i.mnemonic i.operand == some q || operandIndex i.operand == some q) := by
  cases q with
  | a | x | y => cases i <;> rfl

/-! ### What is written -/

/-- An instruction that completes has changed no general register but the one of the table. -/
theorem execBy_frame (h : execBy m o s = .next t) : ∃ flags cells, Frame (destReg m o).toList flags cells s t := by
  cases m
  case adc =>
    rcases addWithCarry_next h with ⟨-, rfl⟩ | ⟨-, rfl⟩
    · exact ⟨_, _, (writesReg_decimalToA _ s).frame⟩
    · exact ⟨_, _, (writesReg_addBinaryToA _ s).frame⟩
  case sbc =>
    rcases subtractWithBorrow_next h with ⟨-, rfl⟩ | ⟨-, rfl⟩
    · exact ⟨_, _, (writesReg_decimalToA _ s).frame⟩
    · exact ⟨_, _, (writesReg_addBinaryToA _ s).frame⟩
  case and | eor | ora | lda | ldx | ldy | tax | tay | tsx | txa | tya | inx | iny | dex | dey =>
    obtain rfl := Host.Outcome.next.inj h
    exact ⟨_, _, ((writesReg_setReg s _ _).setZN _).frame⟩
  case asl | lsr | rol | ror =>
    cases o with
    | mem form =>
      obtain ⟨-, written, -⟩ := shiftMemPost_of_shiftMem h
      exact ⟨_, _, written.frame⟩
    | imp | acc | imm | ind | rel =>
      obtain ⟨-, written, -⟩ := shiftAccPost_of_shiftAcc h
      exact ⟨_, _, written.frame⟩
  case inc | dec =>
    obtain ⟨-, written, -⟩ := cellDeltaPost_of_addToCell h
    exact ⟨_, _, written.frame⟩
  case cmp | cpx | cpy =>
    obtain ⟨written, -⟩ := comparePost_of_compareReg h
    exact ⟨_, _, written.frame⟩
  case bit =>
    obtain ⟨written, -⟩ := bitPost_of_bitTest h
    exact ⟨_, _, written.frame⟩
  case clc | cld | cli | clv | sec | sed | sei => exact ⟨_, _, flagInstr_next h ▸ frame_setFlag s _ _⟩
  case sta | stx | sty => exact ⟨_, _, storeByte_next h ▸ frame_write s _ _⟩
  case bcc | bcs | beq | bmi | bne | bpl | bvc | bvs =>
    obtain ⟨-, frame, -⟩ := branchPost_of_branchIf h
    exact ⟨_, _, frame⟩
  case jmp => obtain rfl := Host.Outcome.next.inj h; exact ⟨_, _, frame_setPc s _⟩
  case jsr => exact ⟨_, _, frame_of_execJsr h⟩
  case rts => exact ⟨_, _, frame_of_execRts h⟩
  case brk | rti | nop => obtain rfl := Host.Outcome.next.inj h; exact ⟨_, _, Frame.refl s⟩
  case pha | php => obtain rfl := Host.Outcome.next.inj h; exact ⟨_, _, frame_push s _⟩
  case pla =>
    obtain rfl := Host.Outcome.next.inj h
    exact ⟨_, _, ((frame_pop s).trans (frame_setReg _ .a _)).trans (frame_setZN _ _)⟩
  case plp => obtain rfl := Host.Outcome.next.inj h; exact ⟨_, _, (frame_pop s).trans (frame_setP _ _)⟩
  case txs => obtain rfl := Host.Outcome.next.inj h; exact ⟨_, _, frame_setSp s _⟩

/-! ### What is read -/

/-- `q` set to `v`, unless it is the register `dest` that has been written since. -/
def State.setRegUnless (dest : Option Reg) (q : Reg) (v : Byte) (s : State) : State :=
  if dest = some q then s else s.setReg q v

theorem reg_setReg_of_ne (ne : some r ≠ some q) (v : Byte) : (s.setReg q v).reg r = s.reg r :=
  (State.reg_setReg ..).trans (if_neg fun e => ne (congrArg some e))

section

variable (v : Byte)

/-! A register changed before one of the shared operations of the meanings is changed after it, or written by it. -/

theorem loadReg_setReg (r : Reg) (w : Byte) (s : State) :
    loadReg r w (s.setReg q v) = mapNext (State.setRegUnless (some r) q v) (loadReg r w s) := by
  cases q <;> cases r <;> rfl

theorem compareReg_setReg (w u : Byte) (s : State) :
    compareReg w u (s.setReg q v) = mapNext (State.setRegUnless none q v) (compareReg w u s) := by
  cases q <;> rfl

theorem flagInstr_setReg (f : Flag) (b : Bool) (s : State) :
    flagInstr f b (s.setReg q v) = mapNext (State.setRegUnless none q v) (flagInstr f b s) := by
  cases q <;> rfl

theorem branchIf_setReg (cond : Bool) (d : Byte) (s : State) :
    branchIf cond d (s.setReg q v) = mapNext (State.setRegUnless none q v) (branchIf cond d s) := by
  cases cond <;> cases q <;> rfl

theorem execJsr_setReg (a16 : Addr) (s : State) :
    execJsr a16 (s.setReg q v) = mapNext (State.setRegUnless none q v) (execJsr a16 s) := by
  cases q <;> rfl

theorem execRts_setReg (s : State) :
    execRts (s.setReg q v) = mapNext (State.setRegUnless none q v) (execRts s) := by
  have same : (s.setReg q v).jsrcnt = s.jsrcnt := State.setReg_jsrcnt s q v
  by_cases pending : 0 < s.jsrcnt
  · rw [execRts_of_pending pending, execRts_of_pending (same ▸ pending)]
    cases q <;> rfl
  · rw [execRts_of_none pending, execRts_of_none (same ▸ pending)]
    cases q <;> rfl

/-! So it is for the operations that read a register, where it is another one. -/

theorem addToReg_setReg (unread : some r ≠ some q) (delta : Byte) (s : State) :
    addToReg delta r (s.setReg q v) = mapNext (State.setRegUnless (some r) q v) (addToReg delta r s) := by
  simp only [addToReg, reg_setReg_of_ne unread v]
  exact loadReg_setReg v r _ s

theorem bitTest_setReg (unread : some Reg.a ≠ some q) (w : Byte) (s : State) :
    bitTest w (s.setReg q v) = mapNext (State.setRegUnless none q v) (bitTest w s) := by
  cases q with
  | a => exact absurd rfl unread
  | x | y => rfl

theorem shiftAcc_setReg (unread : some Reg.a ≠ some q) (op : ShiftOp) (s : State) :
    shiftAcc op (s.setReg q v) = mapNext (State.setRegUnless (some .a) q v) (shiftAcc op s) := by
  cases q with
  | a => exact absurd rfl unread
  | x | y => rfl

theorem addWithCarry_setReg (unread : some Reg.a ≠ some q) (w : Byte) (s : State) :
    addWithCarry w (s.setReg q v) = mapNext (State.setRegUnless (some .a) q v) (addWithCarry w s) := by
  have same : (s.setReg q v).flag .d = s.flag .d := State.flag_setReg ..
  cases q with
  | a => exact absurd rfl unread
  | x | y =>
    cases mode : s.flag .d with
    | true => rw [addWithCarry_of_decimal mode, addWithCarry_of_decimal (same.trans mode)]; rfl
    | false => rw [addWithCarry_of_binary mode, addWithCarry_of_binary (same.trans mode)]; rfl

theorem subtractWithBorrow_setReg (unread : some Reg.a ≠ some q) (w : Byte) (s : State) :
    subtractWithBorrow w (s.setReg q v) = mapNext (State.setRegUnless (some .a) q v) (subtractWithBorrow w s) := by
  have same : (s.setReg q v).flag .d = s.flag .d := State.flag_setReg ..
  cases q with
  | a => exact absurd rfl unread
  | x | y =>
    cases mode : s.flag .d with
    | true => rw [subtractWithBorrow_of_decimal mode, subtractWithBorrow_of_decimal (same.trans mode)]; rfl
    | false => rw [subtractWithBorrow_of_binary mode, subtractWithBorrow_of_binary (same.trans mode)]; rfl

/-! And for those that read or write through an operand, where it is not the operand's index. -/

theorem reg_setReg_of_index {index : Option Reg} (unread : index ≠ some q) (s : State) :
    ∀ r, index = some r → (s.setReg q v).reg r = s.reg r :=
  fun _ e => reg_setReg_of_ne (e ▸ unread) v

theorem sourceByte_setReg (unread : operandIndex o ≠ some q) (s : State) : sourceByte (s.setReg q v) o = sourceByte s o :=
  sourceByte_of_same (State.setReg_mem ..) (reg_setReg_of_index v unread s)

theorem jumpTarget_setReg (unread : operandIndex o ≠ some q) (s : State) : jumpTarget (s.setReg q v) o = jumpTarget s o :=
  jumpTarget_of_same (State.setReg_mem ..) (reg_setReg_of_index v unread s)

theorem effectiveAddress_setReg {form : MemForm} (unread : formIndex form ≠ some q) (s : State) :
    effectiveAddress (s.setReg q v) form = effectiveAddress s form :=
  effectiveAddress_of_same (State.setReg_mem ..) (reg_setReg_of_index v unread s)

theorem formIndex_cellForm (o : Operand) : formIndex (cellForm o) = operandIndex o := by
  cases o <;> rfl

theorem storeByte_setReg {form : MemForm} (unread : formIndex form ≠ some q) (w : Byte) (s : State) :
    storeByte form w (s.setReg q v) = mapNext (State.setRegUnless none q v) (storeByte form w s) := by
  simp only [storeByte, effectiveAddress_setReg v unread]
  cases q <;> rfl

theorem addToCell_setReg {form : MemForm} (unread : formIndex form ≠ some q) (delta : Byte) (s : State) :
    addToCell delta form (s.setReg q v) = mapNext (State.setRegUnless none q v) (addToCell delta form s) := by
  simp only [addToCell, effectiveAddress_setReg v unread]
  cases q <;> rfl

theorem shiftBy_setReg (source : shiftReg o ≠ some q) (index : operandIndex o ≠ some q) (op : ShiftOp) (s : State) :
    shiftBy op o (s.setReg q v) = mapNext (State.setRegUnless (shiftReg o) q v) (shiftBy op o s) := by
  cases o with
  | mem form =>
    simp only [shiftBy, shiftMem, effectiveAddress_setReg v index]
    cases q <;> rfl
  | imp | acc | imm | ind | rel => exact shiftAcc_setReg v source op s

end

/-- A register changed before an instruction that does not read it is changed after it, or nothing where the instruction
writes it. -/
theorem execBy_setReg (source : sourceReg m o ≠ some q) (index : operandIndex o ≠ some q) (v : Byte) (s : State) :
    execBy m o (s.setReg q v) = mapNext (State.setRegUnless (destReg m o) q v) (execBy m o s) := by
  have operand := sourceByte_setReg v index s
  have cell : formIndex (cellForm o) ≠ some q := formIndex_cellForm o ▸ index
  have reg {r : Reg} (unread : some r ≠ some q) : (s.setReg q v).reg r = s.reg r := reg_setReg_of_ne unread v
  cases m
  case adc => simp only [execBy, operand]; exact addWithCarry_setReg v source _ s
  case sbc => simp only [execBy, operand]; exact subtractWithBorrow_setReg v source _ s
  case and | eor | ora =>
    have a : (s.setReg q v).a = s.a := reg source
    simp only [execBy, operand, a]
    exact loadReg_setReg v .a _ s
  case lda | ldx | ldy => simp only [execBy, operand]; exact loadReg_setReg v _ _ s
  case tax | tay =>
    have a : (s.setReg q v).a = s.a := reg source
    simp only [execBy, a]
    exact loadReg_setReg v _ _ s
  case tsx => simp only [execBy, State.setReg_sp]; exact loadReg_setReg v .x _ s
  case txa =>
    have x : (s.setReg q v).x = s.x := reg source
    simp only [execBy, x]
    exact loadReg_setReg v .a _ s
  case tya =>
    have y : (s.setReg q v).y = s.y := reg source
    simp only [execBy, y]
    exact loadReg_setReg v .a _ s
  case inx | iny | dex | dey => exact addToReg_setReg v source _ s
  case asl | lsr | rol | ror => exact shiftBy_setReg v source index _ s
  case inc | dec => exact addToCell_setReg v cell _ s
  case cmp =>
    have a : (s.setReg q v).a = s.a := reg source
    simp only [execBy, operand, a]
    exact compareReg_setReg v _ _ s
  case cpx =>
    have x : (s.setReg q v).x = s.x := reg source
    simp only [execBy, operand, x]
    exact compareReg_setReg v _ _ s
  case cpy =>
    have y : (s.setReg q v).y = s.y := reg source
    simp only [execBy, operand, y]
    exact compareReg_setReg v _ _ s
  case bit => simp only [execBy, operand]; exact bitTest_setReg v source _ s
  case clc | cld | cli | clv | sec | sed | sei => exact flagInstr_setReg v _ _ s
  case sta =>
    have a : (s.setReg q v).a = s.a := reg source
    simp only [execBy, a]
    exact storeByte_setReg v cell _ s
  case stx =>
    have x : (s.setReg q v).x = s.x := reg source
    simp only [execBy, x]
    exact storeByte_setReg v cell _ s
  case sty =>
    have y : (s.setReg q v).y = s.y := reg source
    simp only [execBy, y]
    exact storeByte_setReg v cell _ s
  case bcc | bcs | beq | bmi | bne | bpl | bvc | bvs =>
    simp only [execBy, State.flag_setReg]
    exact branchIf_setReg v _ _ s
  case jmp => simp only [execBy, jumpTarget_setReg v index]; cases q <;> rfl
  case jsr => simp only [execBy, jumpTarget_setReg v index]; exact execJsr_setReg v _ s
  case rts => exact execRts_setReg v s
  case brk | rti | nop | php | pla | plp => cases q <;> rfl
  case pha =>
    have a : (s.setReg q v).a = s.a := reg source
    simp only [execBy, a]
    cases q <;> rfl
  case txs =>
    have x : (s.setReg q v).x = s.x := reg source
    simp only [execBy, x]
    cases q <;> rfl

/-- Settles O52: `execBy_frame` for what is written, `execBy_setReg` for what is read. -/
theorem generalRegistersByTheirTable : Obligations.GeneralRegistersByTheirTable := by
  refine ⟨fun q i s t unwritten h => ?_, fun q i s v unread => ?_⟩
  · rw [writtenBy_eq, beq_eq_false_iff_ne] at unwritten
    rw [exec_eq_execBy] at h
    obtain ⟨flags, cells, frame⟩ := execBy_frame h
    exact frame.regs q (mt Option.mem_toList.1 unwritten)
  · simp only [readBy_eq, Bool.or_eq_false_iff, beq_eq_false_iff_ne] at unread
    obtain ⟨source, index⟩ := unread
    simp only [exec_eq_execBy, writtenBy_eq, beq_iff_eq]
    exact execBy_setReg source index v s

end Sys2Proof.Machine
end
